-- ==== Sys2Proof/Word.lean ====
section
/-! DEFINITION. The words of the machine: 64-bit register values, bytes and cache lines (20_memory.md rule R242). -/

namespace Sys2Proof

/-- A 64-bit register value or metadata element. -/
abbrev Word := BitVec 64

/-- One byte of memory. -/
abbrev Byte := BitVec 8

end Sys2Proof
end

