-- ==== Sys2Proof/Syntax.lean ====
section
/-! DEFINITION. The instructions of the machine: one constructor per row of spec/opcode_table.json, in the table's
order. An instruction carries no operand: every operand is a register of the calling logical processor or of its
current VCPU (30_encoding.md rules R320 and R328). -/

namespace Sys2Proof

/-- The 43 SEAMCALL leaf functions and the 9 TDCALL leaf functions. -/
inductive Instr where
  /-- TDH.VP.ENTER, SEAMCALL leaf 0 (rule R512). -/
  | tdhVpEnter
  /-- TDH.MNG.ADDCX, SEAMCALL leaf 1 (rule R450). -/
  | tdhMngAddcx
  /-- TDH.MEM.PAGE.ADD, SEAMCALL leaf 2 (rule R420). -/
  | tdhMemPageAdd
  /-- TDH.MEM.SEPT.ADD, SEAMCALL leaf 3 (rule R429). -/
  | tdhMemSeptAdd
  /-- TDH.VP.ADDCX, SEAMCALL leaf 4 (rule R510). -/
  | tdhVpAddcx
  /-- TDH.MEM.PAGE.RELOCATE, SEAMCALL leaf 5 (rule R424). -/
  | tdhMemPageRelocate
  /-- TDH.MEM.PAGE.AUG, SEAMCALL leaf 6 (rule R421). -/
  | tdhMemPageAug
  /-- TDH.MEM.RANGE.BLOCK, SEAMCALL leaf 7 (rule R426). -/
  | tdhMemRangeBlock
  /-- TDH.MNG.KEY.CONFIG, SEAMCALL leaf 8 (rule R453). -/
  | tdhMngKeyConfig
  /-- TDH.MNG.CREATE, SEAMCALL leaf 9 (rule R451). -/
  | tdhMngCreate
  /-- TDH.VP.CREATE, SEAMCALL leaf 10 (rule R511). -/
  | tdhVpCreate
  /-- TDH.MNG.RD, SEAMCALL leaf 11 (rule R456). -/
  | tdhMngRd
  /-- TDH.MEM.RD, SEAMCALL leaf 12 (rule R428). -/
  | tdhMemRd
  /-- TDH.MNG.WR, SEAMCALL leaf 13 (rule R458). -/
  | tdhMngWr
  /-- TDH.MEM.WR, SEAMCALL leaf 14 (rule R433). -/
  | tdhMemWr
  /-- TDH.MEM.PAGE.DEMOTE, SEAMCALL leaf 15 (rule R422). -/
  | tdhMemPageDemote
  /-- TDH.MR.EXTEND, SEAMCALL leaf 16 (rule R460). -/
  | tdhMrExtend
  /-- TDH.MR.FINALIZE, SEAMCALL leaf 17 (rule R461). -/
  | tdhMrFinalize
  /-- TDH.VP.FLUSH, SEAMCALL leaf 18 (rule R513). -/
  | tdhVpFlush
  /-- TDH.MNG.VPFLUSHDONE, SEAMCALL leaf 19 (rule R457). -/
  | tdhMngVpflushdone
  /-- TDH.MNG.KEY.FREEID, SEAMCALL leaf 20 (rule R454). -/
  | tdhMngKeyFreeid
  /-- TDH.MNG.INIT, SEAMCALL leaf 21 (rule R452). -/
  | tdhMngInit
  /-- TDH.VP.INIT, SEAMCALL leaf 22 (rule R514). -/
  | tdhVpInit
  /-- TDH.MEM.PAGE.PROMOTE, SEAMCALL leaf 23 (rule R423). -/
  | tdhMemPagePromote
  /-- TDH.PHYMEM.PAGE.RDMD, SEAMCALL leaf 24 (rule R481). -/
  | tdhPhymemPageRdmd
  /-- TDH.MEM.SEPT.RD, SEAMCALL leaf 25 (rule R430). -/
  | tdhMemSeptRd
  /-- TDH.VP.RD, SEAMCALL leaf 26 (rule R515). -/
  | tdhVpRd
  /-- TDH.MNG.KEY.RECLAIMID, SEAMCALL leaf 27 (rule R455). -/
  | tdhMngKeyReclaimid
  /-- TDH.PHYMEM.PAGE.RECLAIM, SEAMCALL leaf 28 (rule R482). -/
  | tdhPhymemPageReclaim
  /-- TDH.MEM.PAGE.REMOVE, SEAMCALL leaf 29 (rule R425). -/
  | tdhMemPageRemove
  /-- TDH.MEM.SEPT.REMOVE, SEAMCALL leaf 30 (rule R431). -/
  | tdhMemSeptRemove
  /-- TDH.SYS.KEY.CONFIG, SEAMCALL leaf 31 (rule R487). -/
  | tdhSysKeyConfig
  /-- TDH.SYS.INFO, SEAMCALL leaf 32 (rule R485). -/
  | tdhSysInfo
  /-- TDH.SYS.INIT, SEAMCALL leaf 33 (rule R486). -/
  | tdhSysInit
  /-- TDH.SYS.LP.INIT, SEAMCALL leaf 35 (rule R488). -/
  | tdhSysLpInit
  /-- TDH.SYS.TDMR.INIT, SEAMCALL leaf 36 (rule R490). -/
  | tdhSysTdmrInit
  /-- TDH.MEM.TRACK, SEAMCALL leaf 38 (rule R432). -/
  | tdhMemTrack
  /-- TDH.MEM.RANGE.UNBLOCK, SEAMCALL leaf 39 (rule R427). -/
  | tdhMemRangeUnblock
  /-- TDH.PHYMEM.CACHE.WB, SEAMCALL leaf 40 (rule R480). -/
  | tdhPhymemCacheWb
  /-- TDH.PHYMEM.PAGE.WBINVD, SEAMCALL leaf 41 (rule R483). -/
  | tdhPhymemPageWbinvd
  /-- TDH.VP.WR, SEAMCALL leaf 43 (rule R516). -/
  | tdhVpWr
  /-- TDH.SYS.LP.SHUTDOWN, SEAMCALL leaf 44 (rule R489). -/
  | tdhSysLpShutdown
  /-- TDH.SYS.CONFIG, SEAMCALL leaf 45 (rule R484). -/
  | tdhSysConfig
  /-- TDG.VP.VMCALL, TDCALL leaf 0 (rule R549). -/
  | tdgVpVmcall
  /-- TDG.VP.INFO, TDCALL leaf 1 (rule R547). -/
  | tdgVpInfo
  /-- TDG.MR.RTMR.EXTEND, TDCALL leaf 2 (rule R543). -/
  | tdgMrRtmrExtend
  /-- TDG.VP.VEINFO.GET, TDCALL leaf 3 (rule R548). -/
  | tdgVpVeinfoGet
  /-- TDG.MR.REPORT, TDCALL leaf 4 (rule R542). -/
  | tdgMrReport
  /-- TDG.VP.CPUIDVE.SET, TDCALL leaf 5 (rule R546). -/
  | tdgVpCpuidveSet
  /-- TDG.MEM.PAGE.ACCEPT, TDCALL leaf 6 (rule R541). -/
  | tdgMemPageAccept
  /-- TDG.VM.RD, TDCALL leaf 7 (rule R544). -/
  | tdgVmRd
  /-- TDG.VM.WR, TDCALL leaf 8 (rule R545). -/
  | tdgVmWr
  deriving DecidableEq, Repr

end Sys2Proof
end

