-- ==== Sys2Proof/Decode.lean ====
section
/-! DEFINITION. Decoding: the leaf number in RAX selects the function, and which CPU instruction was executed
(SEAMCALL or TDCALL) selects the table (30_encoding.md rules R320 and R328). After it, the encoder. -/

namespace Sys2Proof

/-- Which of the two calling instructions was executed. -/
inductive Side where
  /-- SEAMCALL, executed by the host. -/
  | seamcall
  /-- TDCALL, executed by the guest TD. -/
  | tdcall
  deriving DecidableEq, Repr

/-- Why a call names no function. -/
inductive DecodeError where
  /-- The leaf number is not one of the side's table (R321 step 1; R328 check 2). -/
  | unsupportedLeaf (side : Side) (leaf : Nat)
  /-- Fewer than the eight bytes of RAX were given. -/
  | truncated (bytes : Nat)
  deriving DecidableEq, Repr

/-- One row of a leaf table. -/
structure LeafRow where
  leaf : Nat
  instr : Instr
  deriving DecidableEq, Repr

/-- Table 22.4: the SEAMCALL leaf numbers (R320). -/
def seamcallRows : List LeafRow := [
  ⟨0, .tdhVpEnter⟩,
  ⟨1, .tdhMngAddcx⟩,
  ⟨2, .tdhMemPageAdd⟩,
  ⟨3, .tdhMemSeptAdd⟩,
  ⟨4, .tdhVpAddcx⟩,
  ⟨5, .tdhMemPageRelocate⟩,
  ⟨6, .tdhMemPageAug⟩,
  ⟨7, .tdhMemRangeBlock⟩,
  ⟨8, .tdhMngKeyConfig⟩,
  ⟨9, .tdhMngCreate⟩,
  ⟨10, .tdhVpCreate⟩,
  ⟨11, .tdhMngRd⟩,
  ⟨12, .tdhMemRd⟩,
  ⟨13, .tdhMngWr⟩,
  ⟨14, .tdhMemWr⟩,
  ⟨15, .tdhMemPageDemote⟩,
  ⟨16, .tdhMrExtend⟩,
  ⟨17, .tdhMrFinalize⟩,
  ⟨18, .tdhVpFlush⟩,
  ⟨19, .tdhMngVpflushdone⟩,
  ⟨20, .tdhMngKeyFreeid⟩,
  ⟨21, .tdhMngInit⟩,
  ⟨22, .tdhVpInit⟩,
  ⟨23, .tdhMemPagePromote⟩,
  ⟨24, .tdhPhymemPageRdmd⟩,
  ⟨25, .tdhMemSeptRd⟩,
  ⟨26, .tdhVpRd⟩,
  ⟨27, .tdhMngKeyReclaimid⟩,
  ⟨28, .tdhPhymemPageReclaim⟩,
  ⟨29, .tdhMemPageRemove⟩,
  ⟨30, .tdhMemSeptRemove⟩,
  ⟨31, .tdhSysKeyConfig⟩,
  ⟨32, .tdhSysInfo⟩,
  ⟨33, .tdhSysInit⟩,
  ⟨35, .tdhSysLpInit⟩,
  ⟨36, .tdhSysTdmrInit⟩,
  ⟨38, .tdhMemTrack⟩,
  ⟨39, .tdhMemRangeUnblock⟩,
  ⟨40, .tdhPhymemCacheWb⟩,
  ⟨41, .tdhPhymemPageWbinvd⟩,
  ⟨43, .tdhVpWr⟩,
  ⟨44, .tdhSysLpShutdown⟩,
  ⟨45, .tdhSysConfig⟩]

/-- Table 22.183: the TDCALL leaf numbers (R328). -/
def tdcallRows : List LeafRow := [
  ⟨0, .tdgVpVmcall⟩,
  ⟨1, .tdgVpInfo⟩,
  ⟨2, .tdgMrRtmrExtend⟩,
  ⟨3, .tdgVpVeinfoGet⟩,
  ⟨4, .tdgMrReport⟩,
  ⟨5, .tdgVpCpuidveSet⟩,
  ⟨6, .tdgMemPageAccept⟩,
  ⟨7, .tdgVmRd⟩,
  ⟨8, .tdgVmWr⟩]

/-- The leaf table of a side. -/
def leafRows : Side → List LeafRow
  | .seamcall => seamcallRows
  | .tdcall => tdcallRows

/-- The function of a leaf number in a table, or none. -/
def findLeaf : List LeafRow → Nat → Option Instr
  | [], _ => none
  | r :: rs, n => if r.leaf = n then some r.instr else findLeaf rs n

/-- Decoding: the whole of RAX is the leaf number; there is no version or flag field (R320, R328). -/
def decode (side : Side) (rax : Word) : Except DecodeError Instr :=
  match findLeaf (leafRows side) rax.toNat with
  | some i => .ok i
  | none => .error (.unsupportedLeaf side rax.toNat)

/-- The little-endian value of a list of bytes (R242). -/
def leNat : List Byte → Nat
  | [] => 0
  | b :: bs => b.toNat + 256 * leNat bs

/-- Decoding of any bytes: the eight bytes of RAX, least significant first, then the rest. -/
def decodeBytes (side : Side) (bytes : List Byte) : Except DecodeError (Instr × List Byte) :=
  if bytes.length < 8 then .error (.truncated bytes.length)
  else
    match decode side (BitVec.ofNat 64 (leNat (bytes.take 8))) with
    | .ok i => .ok (i, bytes.drop 8)
    | .error e => .error e

/-- The bytes of a value, least significant first (R242). -/
def natBytes : Nat → Nat → List Byte
  | 0, _ => []
  | n + 1, v => BitVec.ofNat 8 v :: natBytes n (v / 256)

/-- The host's reading of an opcode-table word: the word is the value of RAX. The SEAMCALL table is tried first,
because the words of the nine TDCALL rows are also words of SEAMCALL rows (log entry 1). -/
def decodeTableWord (nbits w : Nat) : Option Instr :=
  let bytes := natBytes 8 (w % 2 ^ nbits)
  match decodeBytes .seamcall bytes with
  | .ok (i, _) => some i
  | .error _ =>
    match decodeBytes .tdcall bytes with
    | .ok (i, _) => some i
    | .error _ => none

/-- The side an instruction belongs to. -/
def Instr.side : Instr → Side
  | .tdhVpEnter => .seamcall
  | .tdhMngAddcx => .seamcall
  | .tdhMemPageAdd => .seamcall
  | .tdhMemSeptAdd => .seamcall
  | .tdhVpAddcx => .seamcall
  | .tdhMemPageRelocate => .seamcall
  | .tdhMemPageAug => .seamcall
  | .tdhMemRangeBlock => .seamcall
  | .tdhMngKeyConfig => .seamcall
  | .tdhMngCreate => .seamcall
  | .tdhVpCreate => .seamcall
  | .tdhMngRd => .seamcall
  | .tdhMemRd => .seamcall
  | .tdhMngWr => .seamcall
  | .tdhMemWr => .seamcall
  | .tdhMemPageDemote => .seamcall
  | .tdhMrExtend => .seamcall
  | .tdhMrFinalize => .seamcall
  | .tdhVpFlush => .seamcall
  | .tdhMngVpflushdone => .seamcall
  | .tdhMngKeyFreeid => .seamcall
  | .tdhMngInit => .seamcall
  | .tdhVpInit => .seamcall
  | .tdhMemPagePromote => .seamcall
  | .tdhPhymemPageRdmd => .seamcall
  | .tdhMemSeptRd => .seamcall
  | .tdhVpRd => .seamcall
  | .tdhMngKeyReclaimid => .seamcall
  | .tdhPhymemPageReclaim => .seamcall
  | .tdhMemPageRemove => .seamcall
  | .tdhMemSeptRemove => .seamcall
  | .tdhSysKeyConfig => .seamcall
  | .tdhSysInfo => .seamcall
  | .tdhSysInit => .seamcall
  | .tdhSysLpInit => .seamcall
  | .tdhSysTdmrInit => .seamcall
  | .tdhMemTrack => .seamcall
  | .tdhMemRangeUnblock => .seamcall
  | .tdhPhymemCacheWb => .seamcall
  | .tdhPhymemPageWbinvd => .seamcall
  | .tdhVpWr => .seamcall
  | .tdhSysLpShutdown => .seamcall
  | .tdhSysConfig => .seamcall
  | .tdgVpVmcall => .tdcall
  | .tdgVpInfo => .tdcall
  | .tdgMrRtmrExtend => .tdcall
  | .tdgVpVeinfoGet => .tdcall
  | .tdgMrReport => .tdcall
  | .tdgVpCpuidveSet => .tdcall
  | .tdgMemPageAccept => .tdcall
  | .tdgVmRd => .tdcall
  | .tdgVmWr => .tdcall

/-- The leaf number of an instruction. -/
def Instr.leaf : Instr → Nat
  | .tdhVpEnter => 0
  | .tdhMngAddcx => 1
  | .tdhMemPageAdd => 2
  | .tdhMemSeptAdd => 3
  | .tdhVpAddcx => 4
  | .tdhMemPageRelocate => 5
  | .tdhMemPageAug => 6
  | .tdhMemRangeBlock => 7
  | .tdhMngKeyConfig => 8
  | .tdhMngCreate => 9
  | .tdhVpCreate => 10
  | .tdhMngRd => 11
  | .tdhMemRd => 12
  | .tdhMngWr => 13
  | .tdhMemWr => 14
  | .tdhMemPageDemote => 15
  | .tdhMrExtend => 16
  | .tdhMrFinalize => 17
  | .tdhVpFlush => 18
  | .tdhMngVpflushdone => 19
  | .tdhMngKeyFreeid => 20
  | .tdhMngInit => 21
  | .tdhVpInit => 22
  | .tdhMemPagePromote => 23
  | .tdhPhymemPageRdmd => 24
  | .tdhMemSeptRd => 25
  | .tdhVpRd => 26
  | .tdhMngKeyReclaimid => 27
  | .tdhPhymemPageReclaim => 28
  | .tdhMemPageRemove => 29
  | .tdhMemSeptRemove => 30
  | .tdhSysKeyConfig => 31
  | .tdhSysInfo => 32
  | .tdhSysInit => 33
  | .tdhSysLpInit => 35
  | .tdhSysTdmrInit => 36
  | .tdhMemTrack => 38
  | .tdhMemRangeUnblock => 39
  | .tdhPhymemCacheWb => 40
  | .tdhPhymemPageWbinvd => 41
  | .tdhVpWr => 43
  | .tdhSysLpShutdown => 44
  | .tdhSysConfig => 45
  | .tdgVpVmcall => 0
  | .tdgVpInfo => 1
  | .tdgMrRtmrExtend => 2
  | .tdgVpVeinfoGet => 3
  | .tdgMrReport => 4
  | .tdgVpCpuidveSet => 5
  | .tdgMemPageAccept => 6
  | .tdgVmRd => 7
  | .tdgVmWr => 8

/-- The encoder: the value of RAX that selects an instruction. -/
def encode (i : Instr) : Word := BitVec.ofNat 64 i.leaf

/-- The eight bytes of an instruction's RAX. -/
def encodeBytes (i : Instr) : List Byte := natBytes 8 i.leaf

end Sys2Proof
end

