-- ==== Sys2Proof/Machine/Bits.lean ====
section
/-! DEFINITION. Bit fields, masks and byte order of 64-bit words (20_memory.md rule R242). -/

namespace Sys2Proof.Machine

/-- A natural number as a 64-bit word. -/
abbrev w64 (n : Nat) : Word := BitVec.ofNat 64 n

/-- Bit `i` of a word. -/
def bit (w : Word) (i : Nat) : Bool := w.getLsbD i

/-- Bits `hi:lo` of a word, as a number. -/
def bitsOf (w : Word) (hi lo : Nat) : Nat := w.toNat / 2 ^ lo % 2 ^ (hi + 1 - lo)

/-- A Boolean as bit `i` of a word. -/
def bitAt (b : Bool) (i : Nat) : Word := if b then w64 (2 ^ i) else 0

/-- The value of a Boolean field: 0 or 1. -/
def boolWord (b : Bool) : Word := if b then 1 else 0

/-- The masked update (old AND NOT mask) OR (new AND mask) of the metadata write functions (R136, R200). -/
def mergeMask (old new mask : Word) : Word := (old &&& ~~~mask) ||| (new &&& mask)

/-- The mask of the low `n` bits. -/
def lowMask (n : Nat) : Word := w64 (2 ^ n - 1)

/-- Little-endian value of a list of bytes (R242). -/
def leValue : List Byte → Nat
  | [] => 0
  | b :: bs => b.toNat + 256 * leValue bs

/-- The `n` bytes of a number, least significant first (R242). -/
def leBytes : Nat → Nat → List Byte
  | 0, _ => []
  | n + 1, v => BitVec.ofNat 8 v :: leBytes n (v / 256)

/-- `n` bytes of a byte list from offset `off`, bytes beyond the end being 0. -/
def bytesAt (bs : List Byte) (off n : Nat) : List Byte :=
  let part := (bs.drop off).take n
  part ++ List.replicate (n - part.length) 0

/-- The little-endian number in `n` bytes of a structure at offset `off`. -/
def fieldAt (bs : List Byte) (off n : Nat) : Nat := leValue (bytesAt bs off n)

/-- A list of bytes cut or zero-filled to exactly `n` bytes. -/
def padTo (n : Nat) (bs : List Byte) : List Byte := bytesAt bs 0 n

/-- A list of 64-bit words as bytes. -/
def wordsBytes : List Word → List Byte
  | [] => []
  | w :: ws => leBytes 8 w.toNat ++ wordsBytes ws

/-- The first `n` 64-bit words of a byte list. -/
def bytesWords : Nat → List Byte → List Word
  | 0, _ => []
  | n + 1, bs => w64 (fieldAt bs 0 8) :: bytesWords n (bs.drop 8)

/-- A multiple of `a`. -/
def isAligned (n a : Nat) : Bool := n % a == 0

/-- Do `[b1, b1+s1)` and `[b2, b2+s2)` overlap. -/
def overlaps (b1 s1 b2 s2 : Nat) : Bool := decide (b1 < b2 + s2) && decide (b2 < b1 + s1)

/-- Does `[b, b+s)` lie inside `[B, B+S)`. -/
def inside (b s B S : Nat) : Bool := decide (B ≤ b) && decide (b + s ≤ B + S)

end Sys2Proof.Machine
end

