-- ==== Sys2Proof/Machine/Flags.lean ====
section
/-! DEFINITION. The flags of RFLAGS that the interface names: CF, which VMfailInvalid sets (60_exceptions.md rules R750
and R752), and IF, which gates virtual interrupts (45_cpu_virt.md rule R614). No interface function computes any other
flag; SEAMRET restores RFLAGS (30_encoding.md rule R326). -/

namespace Sys2Proof.Machine

/-- The carry flag, bit 0. -/
def carryFlag (rflags : Word) : Bool := bit rflags 0

/-- The interrupt flag, bit 9. -/
def interruptFlag (rflags : Word) : Bool := bit rflags 9

/-- RFLAGS after VMfailInvalid: CF is 1, the rest unchanged (R752, log entry 12). -/
def vmfailFlags (rflags : Word) : Word := rflags ||| 1

end Sys2Proof.Machine
end

