-- ==== Sys2Proof/Config.lean ====
section
/-! DEFINITION. What the source leaves to the platform or to the module build as a FUNCTION, and every free value:
constants with no body, so that no statement can lean on one (93_implementation_defined.md Part 1 and Part 3; log
entries 3 and 4). The finite platform parameters are the record `Platform` of Sys2Proof/Machine/State.lean. -/

namespace Sys2Proof.Config

/-- The MAC function of SEAMREPORT, from the 224 hashed bytes to the 32 bytes of REPORTMACSTRUCT.MAC (R389). -/
opaque macK : List Byte → List Byte

/-- The native CPUID values: `nativeCpuid leaf subleaf` is EAX, EBX, ECX, EDX (R600; R670 to R690). -/
opaque nativeCpuid : Nat → Nat → BitVec 32 × BitVec 32 × BitVec 32 × BitVec 32

/-- The native value of an MSR on a logical processor: `nativeMsr lp index` (R610, R660). -/
opaque nativeMsr : Nat → Nat → Word

/-- The value an MSR has after INIT, for the rows of Table 22.162 (R512, R700). -/
opaque msrInit : Nat → Word

/-- Size of the XSAVES area of an XFAM, in 8-byte units (R205). -/
opaque xsaveUnits : Word → Nat

/-- Offset of an extended-state component inside the XSAVES area of an XFAM, in 8-byte units (R130, R205). -/
opaque xsaveOffsetUnits : Word → Nat → Nat

/-- The byte that a read of a line under a key that does not match returns, where the source says the data are
unspecified (R272): free for each step, byte address and HKID. -/
opaque garbageByte : Nat → Nat → Nat → Byte

/-- The bytes of a line of a control structure, a Secure EPT page or the PAMT in a cache: free for each step and byte
address (R275, log entry 56). -/
opaque moduleByte : Nat → Nat → Byte

/-- Does the CPU refuse a value for an MSR whose format depends on the processor: `msrValueRefused index value` (R660, log
entry 78). -/
opaque msrValueRefused : Nat → Word → Bool

/-- The entries of CPUID_VALUES beyond those that R690 enumerates, where a module build has more: `cpuidSpare j attributes
xfam` is EAX, EBX, ECX, EDX of entry `j` (R130, log entry 2). -/
opaque cpuidSpare : Nat → Word → Word → BitVec 32 × BitVec 32 × BitVec 32 × BitVec 32

/-- Does the VM entry of TDH.VP.ENTER fail with a basic reason on the guest state in these TD VMCS fields: the CPU's own
checks, which the source does not list (R642, log entry 40). -/
opaque entryRefused : Nat → List (Nat × Word) → Bool

/-- Any other 64-bit value the source leaves open: `freeWord step tag` (93_implementation_defined.md, treatment
"any value"). -/
opaque freeWord : Nat → Nat → Word

/-- The byte offset of VE_INFO inside its page (R184). -/
opaque veInfoOffset : Nat

end Sys2Proof.Config
end

