-- ==== Sys2Proof/Machine/Labels.lean ====
section
/-! DEFINITION. The labels of the machine's steps other than a bare SEAMCALL or TDCALL (00_scope.md rule R11): guest
operations (45_cpu_virt.md rule R570), events (60_exceptions.md rule R701), what the host does outside the interface
(10_state.md rule R51, 20_memory.md rules R258 and R275) and draws of the environment. -/

namespace Sys2Proof.Machine

/-- The general registers but RSP, in the numbering of the operand identifiers (R324). -/
inductive Reg where
  | rax | rcx | rdx | rbx | rbp | rsi | rdi | r8 | r9 | r10 | r11 | r12 | r13 | r14 | r15
  deriving DecidableEq, Repr

/-- A VM-exit record (R702): what the CPU writes into the VM-exit information fields of the TD VMCS (R187). -/
structure VmExit where
  reason : Word
  qualification : Word
  gla : Word
  gpa : Word
  intrInfo : Word
  intrError : Word
  idtVectoring : Word
  idtError : Word
  instrLength : Word
  instrInfo : Word
  ioRcx : Word
  ioRsi : Word
  ioRdi : Word
  ioRip : Word
  instrError : Word
  deriving DecidableEq, Repr

/-- A record with a basic reason and nothing else. -/
def VmExit.plain (reason : Word) : VmExit := ⟨reason, 0, 0, 0, 0, 0, 0, 0, 0, 0, 0, 0, 0, 0, 0⟩

/-- The kinds of a guest memory access; `update` reads and writes in one atomic operation (R277). -/
inductive AccessKind where
  | read | write | fetch | update
  deriving DecidableEq, Repr

/-- The source operand of a LOCK-prefixed instruction: a register, or an immediate as the instruction extends it. -/
inductive RmwSrc where
  | reg (r : Reg)
  | imm (x : Word)
  deriving DecidableEq, Repr

/-- The two-operand arithmetic and logic instructions that take LOCK. -/
inductive AluFn where
  | add | adc | sub | sbb | and | or | xor
  deriving DecidableEq, Repr

/-- The bit-test instructions that take LOCK: BTS, BTR and BTC. -/
inductive BitFn where
  | set | reset | complement
  deriving DecidableEq, Repr

/-- The atomic read-modify-write instructions (R277): XCHG and every instruction that takes the LOCK prefix. -/
inductive RmwFn where
  | xchg (r : Reg)
  | xadd (r : Reg)
  | cmpxchg (r : Reg)
  /-- CMPXCHG8B and CMPXCHG16B, by the size of the access -/
  | cmpxchgPair
  | alu (f : AluFn) (src : RmwSrc)
  | inc | dec | neg | not
  | bitTest (f : BitFn) (src : RmwSrc)
  deriving DecidableEq, Repr

/-- What an access does: a load into a register, a store of one, an instruction fetch, an atomic operation. -/
inductive MemOp where
  | read (r : Reg)
  | write (r : Reg)
  | fetch
  | update (f : RmwFn)
  deriving DecidableEq, Repr

/-- The sizes of an access in bytes: 8 and 16 for CMPXCHG8B and CMPXCHG16B, else at most 8. -/
def MemOp.sizeOk : MemOp → Nat → Bool
  | .update .cmpxchgPair, n => n == 8 || n == 16
  | _, n => decide (n ≤ 8)

/-- The bytes of an access that lie in one page: guest-linear and guest-physical address, number of bytes. -/
structure MemPart where
  gla : Nat
  gpa : Nat
  size : Nat
  deriving DecidableEq, Repr

/-- One access: what it does, and its bytes, lowest first; an access that spans two pages has two parts (R276). -/
structure MemAccess where
  op : MemOp
  parts : List MemPart
  deriving DecidableEq, Repr

/-- The software interrupts (R635). -/
inductive SoftInt where
  /-- INT n, any vector -/
  | int (vector : Nat)
  | int3
  | into
  | int1
  deriving DecidableEq, Repr

/-- The instructions whose outcome is #UD unconditionally (R577), with their customary VM-exit reasons. -/
inductive UdInstr where
  | encls | enclv | invept | invvpid | vmclear | vmfunc | vmlaunch | vmptrld | vmptrst | vmread | vmresume | vmwrite
  | vmxoff | vmxon | rsm | getsec | seamcall | seamret
  deriving DecidableEq, Repr

/-- The instructions whose outcome is #VE unconditionally (R578). -/
inductive VeInstr where
  | io | hlt | monitor | mwait | wbinvd | invd | vmcall
  deriving DecidableEq, Repr

/-- The instructions that a control of a debugger's can make exit, and that have no operation of their own (R635, R642). -/
inductive CtlInstr where
  | invlpg | invpcid | pause
  /-- LGDT and LIDT; LLDT and LTR -/
  | tableLoad (ldt : Bool)
  /-- SGDT and SIDT; SLDT and STR -/
  | tableStore (ldt : Bool)
  | rdrand | rdseed | xsaves | xrstors | tpause | umwait | loadiwkey
  deriving DecidableEq, Repr

/-- What the CPU records about an instruction besides the exit reason (R710): length, qualification, guest-linear
address, instruction information. -/
structure InstrInfo where
  length : Nat
  qualification : Word
  gla : Word
  info : Word
  deriving DecidableEq, Repr

/-- One write of guest-owned state by a natively executed instruction (R570, D77). -/
inductive NativeWrite where
  | gpr (r : Reg) (x : Word)
  | rip (x : Word)
  | rflags (x : Word)
  /-- a guest register of the TD VMCS that no rule virtualises: RSP, segment and descriptor-table registers, pending
  debug exceptions, interruptibility -/
  | vmcsGuest (field : Nat) (x : Word)
  | cr2 (x : Word)
  /-- extended state, by its 8-byte element of the XSAVE area -/
  | xbuff (i : Nat) (x : Word)
  /-- the Key Locker internal wrapping key, by element -/
  | iwk (i : Nat) (x : Word)
  /-- an MSR that Table 18.2 makes Native for the TD, changed by the CPU itself (a counter, a trace register) -/
  | msr (index : Nat) (x : Word)
  deriving DecidableEq, Repr

/-- A guest operation (R570). Operands in registers are read from the guest's registers. -/
inductive GuestOp where
  | ud (i : UdInstr) (x : InstrInfo)
  | ve (i : VeInstr) (x : InstrInfo)
  /-- WBNOINVD shares WBINVD's control and exit reason (R635) -/
  | wbnoinvd (x : InstrInfo)
  | pconfig (x : InstrInfo)
  | enqcmd
  | enqcmds
  | rdpmc (x : InstrInfo)
  /-- SENDUIPI: the page offset that the CPU records, and the value that it writes there in the virtual APIC page (R613) -/
  | senduipi (length pageOffset : Nat) (value : Word)
  /-- MOV to CR0 or CR4 from a general register; CLTS and LMSW are MOV to CR0 of the value they would produce -/
  | movToCr0 (v : Word) (x : InstrInfo)
  | movToCr4 (v : Word) (x : InstrInfo)
  | movFromCr0 (r : Reg) (length : Nat)
  | movFromCr4 (r : Reg) (length : Nat)
  /-- MOV to CR3 of a value from a general register -/
  | movToCr3 (r : Reg) (length : Nat)
  | movFromCr3 (r : Reg) (length : Nat)
  | movToCr8 (r : Reg) (length : Nat)
  | movFromCr8 (r : Reg) (length : Nat)
  /-- MOV to and from debug register `n`, 0 to 7 (R635, R645) -/
  | movToDr (n : Nat) (r : Reg) (length : Nat)
  | movFromDr (n : Nat) (r : Reg) (length : Nat)
  /-- RDMSR of the index in ECX -/
  | rdmsr
  /-- WRMSR of EDX:EAX to the index in ECX -/
  | wrmsr
  | cpuid
  | xsetbv
  | xgetbv
  | rdtsc
  | rdtscp
  | iret (ws : List NativeWrite)
  /-- an instruction of `length` bytes that accesses memory: all its accesses, and the other registers it writes;
  `useTlb` and `fillTlb` are the CPU's choices about cached translations (R258), `busLock` a detected bus lock -/
  | mem (accesses : List MemAccess) (ws : List NativeWrite) (length : Nat) (useTlb fillTlb busLock : Bool)
  /-- an exception raised by the guest's own code and delivered through its IDT (R635, R708); the qualification is the
  faulting linear address of #PF and the causes of #DB -/
  | exception (vector : Nat) (error : Option Word) (qualification : Word)
  /-- INT n, INT3, INTO, INT1 of `length` bytes (R635) -/
  | softInt (i : SoftInt) (length : Nat)
  /-- one of the instructions of `CtlInstr`, with the accesses it makes and the state it changes (R635, R642) -/
  | controlled (i : CtlInstr) (x : InstrInfo) (accesses : List MemAccess) (ws : List NativeWrite) (useTlb fillTlb : Bool)
  /-- UMONITOR: the state it changes (R635) -/
  | umonitor (ws : List NativeWrite)
  /-- ENCLU (R635) -/
  | enclu
  /-- a Key Locker instruction but LOADIWKEY: the state it changes (R635) -/
  | keyLocker (ws : List NativeWrite)
  /-- any other instruction: the state it changes (R570) -/
  | other (ws : List NativeWrite)
  deriving DecidableEq, Repr

/-- An event on a logical processor that runs a guest (R701, R703). -/
inductive Event where
  | externalInterrupt (vector : Nat)
  | nmi
  | smi (machineCheck : Bool)
  /-- an SMI after an I/O instruction, with the exit's qualification and its I/O RCX, RSI, RDI and RIP (R187) -/
  | ioSmi (qualification rcx rsi rdi rip : Word)
  | initSignal
  | tripleFault
  /-- a task switch; where it was incidental to the delivery of an event, the IDT-vectoring information and error code of
  that event, else zeros (R636) -/
  | taskSwitch (qualification idtVectoring idtError : Word)
  | machineCheck
  | busLock
  | notification (contextInvalid : Bool)
  | nmiWindow
  /-- delivery of the highest pending virtual interrupt (R614, R726) -/
  | virtualInterrupt
  /-- ENQCMD or ENQCMDS PASID translation failure (R701) -/
  | pasidFailure (enqcmds : Bool)
  /-- a VM entry with which the module resumes the guest fails because of bad guest state (R642): basic reason 33, 34 or 41 -/
  | entryFailure (basic : Nat) (qualification : Word)
  /-- a VM exit by a control that a debugger set, where the CPU chooses whether it happens (R642) -/
  | debugExit (x : VmExit)
  /-- consumption of poison in a long microcode flow (R271): unbreakable shutdown in the guest -/
  | unbreakable
  /-- an event whose VM exit pre-empts the bus-lock VM exit of the instruction just executed (R623) -/
  | busLocked (e : Event)
  deriving DecidableEq, Repr

/-- A segment register of the host (R326). -/
structure SegReg where
  selector : Word
  base : Word
  limit : Word
  access : Word
  deriving DecidableEq, Repr

/-- A descriptor-table register of the host (R326). -/
structure TableReg where
  base : Word
  limit : Word
  deriving DecidableEq, Repr

/-- What the host does outside the interface (R36, R51, R258, R275, R512): every memory operand carries a shared
HKID. -/
inductive HostOp where
  | setGpr (r : Reg) (x : Word)
  | setRsp (x : Word)
  | setRip (x : Word)
  | setRflags (x : Word)
  | setExt (key : Nat) (x : Word)
  | setDr (n : Nat) (x : Word)
  | setCr2 (x : Word)
  | setXcr0 (x : Word)
  /-- CR0, CR3, CR4 and CR8 -/
  | setCr (n : Nat) (x : Word)
  /-- ES, CS, SS, DS, FS, GS, LDTR, TR, in this order from 0 -/
  | setSeg (i : Nat) (x : SegReg)
  | setGdtr (x : TableReg)
  | setIdtr (x : TableReg)
  | setMsr (index : Nat) (x : Word)
  /-- IA32_MISC_ENABLE and IA32_TSC_ADJUST of the logical processor (R512) -/
  | setMiscEnable (x : Word)
  | setTscAdjust (x : Word)
  | memRead (r : Reg) (pa : Nat)
  | memWrite (pa : Nat) (bytes : List Byte)
  /-- CLFLUSH or CLFLUSHOPT of a line -/
  | clflush (pa : Nat)
  /-- WBINVD: write back and invalidate every line of the package or core -/
  | wbinvd
  /-- WBNOINVD: write back every line of the package or core -/
  | wbnoinvd
  /-- PCONFIG of a shared HKID on this package: a new key, with or without integrity -/
  | pconfig (hkid : Nat) (integrity : Bool)
  /-- INVEPT naming a TD's EPTP (its bits 51:12 count, R188): its shared translations on this logical processor are flushed (R258 (d)) -/
  | invept (eptp : Word)
  deriving DecidableEq, Repr

/-! ## Locks (R246, R249, R371) -/

/-- The lockable resources (R249). -/
inductive LockId where
  | pamt4k (hpa : Nat)
  | pamt2m (hpa : Nat)
  | pamt1g (hpa : Nat)
  | sept (tdr : Nat)
  | septEntry (hpa : Nat)
  | epoch (tdr : Nat)
  | rtmr (tdr : Nat)
  | kot
  | ket (pkg : Nat)
  | wbt (scope : Nat)
  | sys
  | tdmr (index : Nat)
  deriving DecidableEq, Repr

/-- The two lock modes. -/
inductive LockMode where
  | shared | exclusive
  deriving DecidableEq, Repr

/-- The environment's choices (00_scope.md rule R11). -/
inductive EnvOp where
  | advanceTsc (n : Nat)
  | setEntropy (ok : Bool)
  /-- an external event (interrupt, NMI, SMI, INIT) is noticed by an interruptible function on a logical processor after
  `n` units of its work, or has been taken by the host (R745) -/
  | setIntrPending (lp : Nat) (after : Option Nat)
  /-- the steps of other agents fall into TDG.MEM.PAGE.ACCEPT on a logical processor after `n` chunks (R276), and into
  TDH.MEM.WR between its steps 8 and 9 (R433 (b)), or nowhere -/
  | setYield (lp : Nat) (after : Option Nat)
  /-- whether another agent wins the next compare-and-exchange that it can race for (R248, R256) -/
  | setRaceLost (lost : Bool)
  /-- a device writes or reads physical memory with a shared HKID (R279) -/
  | dmaWrite (pa : Nat) (bytes : List Byte)
  | dmaRead (pa n : Nat)
  /-- a machine check while a logical processor executes the module (R751) -/
  | moduleMachineCheck (lp : Nat)
  | setApicMode (lp : Nat) (ok : Bool)
  /-- a line is evicted from the caches (R275) -/
  | evict (line hkid : Nat)
  /-- a possibly modified line of a former control-structure page is evicted (R275, R781) -/
  | evictStale (line hkid : Nat)
  /-- the module's last store to a line of a structure it uses is still modified in the caches of a write-back scope
  (R275) -/
  | moduleStore (line hkid scope : Nat)
  /-- a read allocates a clean line (R275) -/
  | fill (line hkid : Nat)
  /-- a cached translation disappears (R258 (e)) -/
  | dropTlb (lp index : Nat)
  /-- a stored line no longer matches its MAC or ECC (R272) -/
  | corrupt (line : Nat)
  /-- a concurrent invocation on another logical processor holds a lock, or releases it (R246, R276) -/
  | holdLock (id : LockId) (mode : LockMode)
  | dropLock (id : LockId)
  /-- a platform reset (R776) -/
  | platformReset
  /-- a new module is loaded after TDH.SYS.LP.SHUTDOWN on every logical processor (R21, R776) -/
  | moduleReload
  deriving DecidableEq, Repr

/-- What one step of the machine is. -/
inductive Label where
  /-- The logical processor executes SEAMCALL (in root mode) or TDCALL (in TDX non-root mode) with its RAX. -/
  | call (lp : Nat)
  /-- The guest on the logical processor performs an operation. -/
  | guest (lp : Nat) (op : GuestOp)
  /-- An event reaches the guest on the logical processor. -/
  | event (lp : Nat) (e : Event)
  /-- The host acts on the logical processor. -/
  | host (lp : Nat) (op : HostOp)
  /-- The environment acts. -/
  | env (op : EnvOp)
  deriving DecidableEq, Repr

end Sys2Proof.Machine
end

