-- ==== Sys2Proof/Machine/Table.lean ====
section
/-! DEFINITION. Sparse tables keyed by a number: lists of pairs with strictly rising keys. `tblGet`, `tblSet`,
`tblDel` for tables of records that exist or do not; `regGet`, `regSet` for tables of 64-bit values that read as 0
where nothing is listed. -/

namespace Sys2Proof.Machine

/-- A table: pairs with strictly rising keys. -/
abbrev Table (α : Type) := List (Nat × α)

/-- A table of 64-bit values in which an unlisted key reads as 0 and no listed value is 0. -/
abbrev RegFile := List (Nat × Word)

/-- The entry of a key. -/
def tblGet {α : Type} : Table α → Nat → Option α
  | [], _ => none
  | (k, v) :: t, i => if k = i then some v else tblGet t i

/-- Remove the entry of a key. -/
def tblDel {α : Type} (t : Table α) (i : Nat) : Table α := t.filter fun e => e.1 != i

/-- Replace or add the entry of a key. -/
def tblSet {α : Type} : Table α → Nat → α → Table α
  | [], i, v => [(i, v)]
  | (k, w) :: t, i, v =>
    if k = i then (i, v) :: t
    else if i < k then (i, v) :: (k, w) :: t
    else (k, w) :: tblSet t i v

/-- Change the entry of a key, if there is one. -/
def tblMod {α : Type} : Table α → Nat → (α → α) → Table α
  | [], _, _ => []
  | (k, w) :: t, i, f => if k = i then (k, f w) :: t else (k, w) :: tblMod t i f

/-- The value of a key: 0 where nothing is listed. -/
def regGet (r : RegFile) (i : Nat) : Word := (tblGet r i).getD 0

/-- Store a value: storing 0 removes the entry. -/
def regSet (r : RegFile) (i : Nat) (v : Word) : RegFile := if v = 0 then tblDel r i else tblSet r i v

/-- Store several values, first to last. -/
def regSetAll : RegFile → List (Nat × Word) → RegFile
  | r, [] => r
  | r, (i, v) :: rest => regSetAll (regSet r i v) rest

/-- Strictly rising keys. -/
def risingFrom {α : Type} : Nat → Table α → Bool
  | _, [] => true
  | lo, (k, _) :: t => decide (lo ≤ k) && risingFrom (k + 1) t

/-- The canonical form of a table. -/
def tblWf {α : Type} (t : Table α) : Bool := risingFrom 0 t

/-- The canonical form of a table of values. -/
def regWf (r : RegFile) : Bool := risingFrom 0 r && r.all fun e => e.2 != 0

end Sys2Proof.Machine
end

