-- ==== Sys2Proof/Machine/State.lean ====
section
/-! DEFINITION. The state of the machine (10_state.md rule R40, 00_scope.md rule R11), the reasons a step can stop,
and the state after reset. Every component is plain data. -/

namespace Sys2Proof.Machine

/-! ## Platform and module-build parameters (00_scope.md rule R12) -/

/-- INTEGRITY_MODE (R270): cryptographic or logical integrity. -/
inductive IntegrityMode where
  | ci | li
  deriving DecidableEq, Repr

/-- Cache write-back scope (R12, R47): per package or per core. -/
inductive WbScope where
  | package | core
  deriving DecidableEq, Repr

/-- Where a logical processor sits (R12): its core and its package. -/
structure LpTopo where
  core : Nat
  pkg : Nat
  deriving DecidableEq, Repr

/-- The outcome of a failing platform check (R12, PLATFORM_OK and PLATFORM_LP_OK): status value (bits 63:32), its
details (bits 31:0) and the extended words. -/
structure CheckFailure where
  status : Nat
  details : Nat
  info : List Word
  deriving DecidableEq, Repr

/-- The four values CPUID returns (R385). -/
structure CpuidRegs where
  eax : BitVec 32
  ebx : BitVec 32
  ecx : BitVec 32
  edx : BitVec 32
  deriving DecidableEq, Repr

/-- One entry of TDSYSINFO_STRUCT.CPUID_CONFIG (R397). `sub = none` is the printed -1, a leaf without sub-leaves. -/
structure CpuidConfig where
  leaf : Nat
  sub : Option Nat
  mask : CpuidRegs
  deriving DecidableEq, Repr

/-- The signature of the CPU of a package, as far as packages may differ (R672). -/
structure PkgCpu where
  pkg : Nat
  stepping : Nat
  deriving DecidableEq, Repr

/-- Every finite parameter of R12 and of 93_implementation_defined.md Part 1; constant from module load on. -/
structure Platform where
  lps : List LpTopo
  maxPkgs : Nat
  maxPa : Nat
  hkidBits : Nat
  numMkidKeys : Nat
  numTdxPrivKids : Nat
  cmrs : List (Nat × Nat)
  seamrrBase : Nat
  seamrrSize : Nat
  integrityMode : IntegrityMode
  bootIntegrity : Bool
  lmce : Bool
  wbScope : WbScope
  platformOk : Option CheckFailure
  platformLpOk : Table CheckFailure
  pinbasedMust1 : Word
  procbasedMust1 : Word
  exitMust1 : Word
  entryMust1 : Word
  cr0Fixed0 : Word
  cr0Fixed1 : Word
  cr4Fixed0 : Word
  cr4Fixed1 : Word
  nativeXfam : Word
  nativeCr4Allowed : Word
  nativeTscHz : Nat
  cpusvn : List Byte
  teeTcbInfo : List Byte
  pasidLow : Word
  pasidHigh : Word
  archCapabilities : Word
  steppings : List PkgCpu
  /-- the length of SEAMCALL, by which RIP passes it (log entry 10); that of TDCALL is `tdcallLength` -/
  seamcallLength : Nat
  moduleAttributes : Nat
  vendorId : Nat
  buildDate : Nat
  buildNum : Nat
  minorVersion : Nat
  majorVersion : Nat
  maxTdmrs : Nat
  maxReservedPerTdmr : Nat
  pamtEntrySize : Nat
  tdcsBaseSize : Nat
  tdvpsBaseSize : Nat
  attributesFixed0 : Word
  attributesFixed1 : Word
  xfamFixed0 : Word
  xfamFixed1 : Word
  cpuidConfig : List CpuidConfig
  tdmrInitChunk : Nat
  epfGpaListSize : Nat
  epfThreshold : Nat
  singleStepExtraMax : Nat
  statusEpfEntryRefused : Nat
  statusSysConfigNotPending : Nat
  statusKeyGenerationFailed : Nat
  shutdownLpRax : Word
  /-- NUM_CPUID_VALUES (R130), and the field code of MRTD_CONTEXT, whose class and NON_ARCH bit R132 gives -/
  numCpuidValues : Nat
  mrtdContextCode : Option Nat
  tdHkidEnc : Option Nat
  septRootTdcx : Nat
  /-- the TDCX page of the MSR bitmaps; the pages of a TDVPS, the TDVPR first, of the virtual APIC page and of VE_INFO -/
  msrBitmapTdcx : Nat
  vapicPage : Nat
  veInfoPage : Nat
  augNeedsFinalized : Bool
  entryNeedsSharedEptp : Bool
  /-- the sub-leaves other than 0 of CPUID leaf 0x21 return zeros (R575), or give #VE (R690) (log entry 71) -/
  cpuid21OthersZero : Bool
  /-- what CPUID(7, 0).EDX bit 30 (IA32_CORE_CAPABILITIES supported) reads for a guest (R689, N37) (log entry 88) -/
  cpuid7Edx30 : Bool
  ucRanges : List (Nat × Nat)
  unbacked : List (Nat × Nat)
  deriving DecidableEq, Repr

/-! ## Registers -/

/-- The general registers of a logical processor or of a VCPU, RSP apart (R168, R326). -/
structure Gprs where
  rax : Word
  rcx : Word
  rdx : Word
  rbx : Word
  rbp : Word
  rsi : Word
  rdi : Word
  r8 : Word
  r9 : Word
  r10 : Word
  r11 : Word
  r12 : Word
  r13 : Word
  r14 : Word
  r15 : Word
  deriving DecidableEq, Repr

/-- All general registers 0. -/
def Gprs.zero : Gprs := ⟨0, 0, 0, 0, 0, 0, 0, 0, 0, 0, 0, 0, 0, 0, 0⟩

/-- A cached guest address translation (R258): its ASID (the TD's root page, the VPID and the PCID, R188), the GPA
range it translates, where to, under which HKID, whether its memory type is uncacheable, and the permissions (bits 2:0,
as in an EPT entry). -/
structure TlbEntry where
  eptp : Nat
  vpid : Nat
  pcid : Nat
  gpa : Nat
  level : Nat
  hpa : Nat
  hkid : Nat
  shared : Bool
  uc : Bool
  perms : Word
  deriving DecidableEq, Repr

/-- A TDH.MEM.WR between its steps 8 and 9, where other agents may act (R433 (b), log entry 91): the TD whose locks it
holds, the chunk's address and HKID, and what RCX, RDX and R8 will return, R8 the content that step 8 read. -/
structure MemWrRun where
  tdr : Nat
  hpa : Nat
  hkid : Nat
  rcx : Word
  rdx : Word
  old : Word
  deriving DecidableEq, Repr

/-- One logical processor (R43; host side R326, R700): `segs` are ES, CS, SS, DS, FS, GS, LDTR and TR. `intrPending` and
`yieldAt` are the environment's choices for the next interruptible function (R745, R276; log entries 54 and 91); `memWr`
is the TDH.MEM.WR that the logical processor is in the middle of (R433 (b)). -/
structure Lp where
  gprs : Gprs
  rsp : Word
  rip : Word
  rflags : Word
  cr0 : Word
  cr3 : Word
  cr4 : Word
  cr8 : Word
  segs : List SegReg
  gdtr : TableReg
  idtr : TableReg
  ext : RegFile
  dr0 : Word
  dr1 : Word
  dr2 : Word
  dr3 : Word
  dr6 : Word
  dr7 : Word
  cr2 : Word
  xcr0 : Word
  msrs : RegFile
  miscEnable : Word
  tscAdjust : Word
  lastVcpu : Option Nat
  initDone : Bool
  seamcallBlocked : Bool
  shutdown : Bool
  curVcpu : Option Nat
  tlb : List TlbEntry
  apicModeOk : Bool
  intrPending : Option Nat
  yieldAt : Option Nat
  memWr : Option MemWrRun
  deriving DecidableEq, Repr

/-! ## Module state -/

/-- PL.SYS_STATE (R42). -/
inductive SysState where
  | sysinitPending | sysinitDone | sysconfigDone | sysReady | sysShutdown
  deriving DecidableEq, Repr

/-- One row of TDMR_TABLE (R44). -/
structure Tdmr where
  base : Nat
  size : Nat
  pamt1gBase : Nat
  pamt1gSize : Nat
  pamt2mBase : Nat
  pamt2mSize : Nat
  pamt4kBase : Nat
  pamt4kSize : Nat
  reserved : List (Nat × Nat)
  next : Nat
  deriving DecidableEq, Repr

/-- The state of a key-ownership-table entry (R52). -/
inductive HkidState where
  | free | assigned | flushed | reserved
  deriving DecidableEq, Repr

/-- Kot[hkid] (R52): WBCACHE_BITMAP is held as the list of the write-back scopes whose bit is 1. -/
structure KotEntry where
  state : HkidState
  wbcache : List Nat
  deriving DecidableEq, Repr

/-- WBT[s] (R47). -/
structure WbtEntry where
  intrPoint : Option Nat
  hkidSet : List Nat
  deriving DecidableEq, Repr

/-- What a key was configured for (R51). -/
inductive KeyOwner where
  | unconfigured
  | module
  | td (tdr : Nat)
  | host
  deriving DecidableEq, Repr

/-- Ket[pkg][hkid] (R51): the key's identity (R272) and, for a shared HKID, whether integrity is enabled. -/
structure KeyCfg where
  owner : KeyOwner
  key : Nat
  integrity : Bool
  deriving DecidableEq, Repr

/-- PAMT page types (R250). -/
inductive PageType where
  | nda | rsvd | reg | tdr | tdcx | tdvpr | tdvpx | ept
  deriving DecidableEq, Repr

/-- One PAMT entry (R250): page type, owner TDR and blocking epoch; its lock is in `State.locks`. -/
structure PamtEntry where
  pt : PageType
  owner : Nat
  bepoch : Word
  deriving DecidableEq, Repr

/-- Secure EPT entry states (R260). -/
inductive SeptState where
  | free | blocked | pending | pendingBlocked | present
  deriving DecidableEq, Repr

/-- One Secure EPT entry (R260): `hpa` is the 4KB-aligned address of the mapped page or of the child page. The
Suppress-#VE bit is a function of the state and of ATTRIBUTES.SEPT_VE_DISABLE (R260 (f)). -/
structure SeptEntry where
  state : SeptState
  leaf : Bool
  hpa : Nat
  deriving DecidableEq, Repr

/-! ## TD scope -/

/-- TDR.LIFECYCLE_STATE (R60). -/
inductive Lifecycle where
  | hkidAssigned | keysConfigured | blocked | teardown
  deriving DecidableEq, Repr

/-- The TDR of a TD (R121, R122). -/
structure Tdr where
  init : Bool
  fatal : Bool
  numTdcx : Nat
  tdcxPa : List Nat
  chldcnt : Nat
  lifecycle : Lifecycle
  hkid : Nat
  pkgConfigBitmap : Word
  deriving DecidableEq, Repr

/-- A running SHA-384 computation: the chaining value and the number of bytes hashed (MRTD_CONTEXT, R132). -/
structure ShaCtx where
  h : List Word
  len : Nat
  deriving DecidableEq, Repr

/-- The TDCS of a TD (R127 to R135); the Secure EPT root page's entries are in `State.sept`. -/
structure Tdcs where
  finalized : Bool
  numVcpus : Nat
  numAssocVcpus : Nat
  attributes : Word
  xfam : Word
  maxVcpus : Nat
  gpaw : Bool
  eptp : Word
  tscOffset : Word
  tscMultiplier : Word
  tscFrequency : Nat
  notifyEnables : Word
  cpuidValues : List CpuidRegs
  xbuffOffsets : RegFile
  tdEpoch : Word
  refcount0 : Nat
  refcount1 : Nat
  mrtd : List Byte
  mrconfigid : List Byte
  mrowner : List Byte
  mrownerconfig : List Byte
  rtmr : List (List Byte)
  mrtdContext : ShaCtx
  msrBitmaps : RegFile
  deriving DecidableEq, Repr

/-! ## VCPU scope -/

/-- VCPU_STATE (R161). -/
inductive VcpuState where
  | uninitialized | readyAsync | readyTdvmcall | active | disabled
  deriving DecidableEq, Repr

/-- VE_INFO (R167). -/
structure VeInfo where
  exitReason : Word
  valid : Word
  exitQualification : Word
  gla : Word
  gpa : Word
  eptpIndex : Word
  instructionLength : Word
  instructionInformation : Word
  deriving DecidableEq, Repr

/-- A TDG.MEM.PAGE.ACCEPT between two of its steps (R276, R541): the request's level and GPA, the Secure EPT entry that
it has locked, with its level and content, and the number of 4KB chunks already zeroed. -/
structure AcceptRun where
  reqLevel : Nat
  gpa : Nat
  entry : Nat
  entryLevel : Nat
  hpa : Nat
  done : Nat
  deriving DecidableEq, Repr

/-- The TDVPS of a VCPU (R164 to R205), keyed by the HPA of its TDVPR page. `vmcs` is keyed by the VMCS field
encoding (R189), `msrs` by the MSR index (R170), `vapic` and `xbuff` by the offset in 8-byte units (R166, R205). The
guest's registers have their one home here, whether or not the VCPU runs. `event` is the model's own (log entry 30): the vector
and error code of the event whose guest handler runs next (R570). `mtfPending` is the CPU's own: a monitor-trap-flag VM exit
is pending before the next instruction (R642; log entry 82). `accept` is the module's own: the TDG.MEM.PAGE.ACCEPT that the
VCPU is in the middle of (R276). -/
structure Tdvps where
  event : Option (Nat × Option Word)
  mtfPending : Bool
  accept : Option AcceptRun
  vcpuState : VcpuState
  launched : Bool
  vcpuIndex : Nat
  numTdvpx : Nat
  pagePa : List Nat
  assocLpid : Option Nat
  assocHkid : Nat
  vcpuEpoch : Word
  cpuidSupervisorVe : Bool
  cpuidUserVe : Bool
  sharedEptpValid : Bool
  lastExitTsc : Word
  pendNmi : Bool
  xfam : Word
  lastEpfGpaListIdx : Nat
  possiblyEpfStepping : Nat
  lastEpfGpaList : List Word
  vapic : RegFile
  veInfo : VeInfo
  gprs : Gprs
  dr0 : Word
  dr1 : Word
  dr2 : Word
  dr3 : Word
  dr6 : Word
  xcr0 : Word
  cr2 : Word
  iwk : RegFile
  msrs : RegFile
  vmcs : RegFile
  xbuff : RegFile
  deriving DecidableEq, Repr

/-! ## Held locks (R371) -/

/-- The state of a held lock (R371); a free lock is not listed. -/
inductive LockState where
  | shared (count : Nat)
  | exclusive
  deriving DecidableEq, Repr

/-! ## Memory (R272, R275) -/

/-- The tag of a cache line in memory (R272): the identity of the writer's key, the TD Owner bit, and whether the
stored MAC or ECC no longer matches. -/
structure LineTag where
  key : Nat
  td : Bool
  bad : Bool
  deriving DecidableEq, Repr

/-- A cache entry (R275): the 64 bytes of a line under one HKID, whether they are poisoned, and the write-back scope
(package or core) whose cache holds it. -/
structure CacheEntry where
  data : List Byte
  modified : Bool
  poison : Bool
  scope : Nat
  deriving DecidableEq, Repr

/-- A range of memory that held control structures or Secure EPT entries under an HKID, every line of which may still be
modified in the caches of the listed write-back scopes (R275, R781). -/
structure StaleRange where
  base : Nat
  size : Nat
  hkid : Nat
  scopes : List Nat
  deriving DecidableEq, Repr

/-- Physical memory. `cells` is the plaintext last written, byte by byte (an unlisted address holds 0); `tags` gives
the tag of every line, as the points where the tag changes from one line to the next; `cache` the cached lines, keyed
by 65536 times the line number plus the HKID; `stale` the lines that the module wrote while they were its own and that
may not have been written back since. -/
structure Memory where
  cells : List Host.Cell
  tags : Table LineTag
  cache : Table CacheEntry
  stale : List StaleRange
  deriving DecidableEq, Repr

/-! ## The whole state -/

/-- The state of the machine. -/
structure State where
  plat : Platform
  curLp : Nat
  schedule : List Label
  lps : List Lp
  sysState : SysState
  seamDisabled : Bool
  pkgConfigBitmap : Word
  sampledTscAdjust : Word
  globalHkid : Nat
  tdmrs : List Tdmr
  kot : Table KotEntry
  wbt : Table WbtEntry
  ket : Table KeyCfg
  pamt4k : Table PamtEntry
  pamt2m : Table PamtEntry
  pamt1g : Table PamtEntry
  sept : Table SeptEntry
  tdrs : Table Tdr
  tdcss : Table Tdcs
  vps : Table Tdvps
  locks : List (LockId × LockState)
  envLocks : List LockId
  mem : Memory
  tsc : Word
  entropyOk : Bool
  raceLost : Bool
  nextKey : Nat
  tick : Nat
  deriving DecidableEq, Repr

/-- Why the machine is stuck. -/
inductive Fault where
  /-- Raised by a step of a logical processor that is in an unbreakable shutdown (R751): it executes nothing until a
  platform reset. Safe: the source describes nothing after it. -/
  | lpShutdown
  deriving DecidableEq, Repr

/-- Why a step has no meaning. -/
inductive Refusal where
  /-- An instruction that has no meaning yet. Safe. -/
  | notModelled (mnemonic : String)
  /-- TDCALL executed outside TDX non-root mode: the CPU's own affair, not the module's (R328 defines it only as a VM
  exit from a guest TD). Safe. -/
  | tdcallOutsideGuest
  /-- No step at all: the label names a logical processor the platform does not have, or a value outside its field
(R11: a step is of an agent the machine has). Safe. -/
  | illFormedLabel
  /-- A guest operation or event on a logical processor that runs no guest. Safe. -/
  | notInGuest
  /-- A host operation on a logical processor that runs a guest. Safe. -/
  | notInRoot
  /-- A host access with a private HKID or to SEAMRR, or a host key configuration of an HKID that is not a shared one:
the source gives the host no such step (R240 and D61; R3 (a); R51). Safe. -/
  | notTheHosts
  /-- An event or a choice of the environment in a state where it cannot occur. Safe. -/
  | notEnabled
  deriving DecidableEq, Repr

/-! ## Reset -/

/-- The key identity of memory that nothing has written since module load: no HKID selects it (R272). -/
def staleKey : Nat := 65536

/-- The segment registers after reset, of the family (log entry 6): CS at 0xF000 with base 0xFFFF0000, the others at 0. -/
def SegReg.resets : List SegReg :=
  [⟨0, 0, 0xFFFF, 0x93⟩, ⟨0xF000, 0xFFFF0000, 0xFFFF, 0x9B⟩, ⟨0, 0, 0xFFFF, 0x93⟩, ⟨0, 0, 0xFFFF, 0x93⟩,
   ⟨0, 0, 0xFFFF, 0x93⟩, ⟨0, 0, 0xFFFF, 0x93⟩, ⟨0, 0, 0xFFFF, 0x82⟩, ⟨0, 0, 0xFFFF, 0x8B⟩]

/-- A logical processor after reset, with the family's values (log entries 5 and 6): RDX is the processor signature. -/
def Lp.reset : Lp :=
  { gprs := { Gprs.zero with rdx := 0x806F8 }, rsp := 0, rip := 0xFFF0, rflags := 2, ext := [], dr0 := 0, dr1 := 0, dr2 := 0, dr3 := 0,
    dr6 := 0xFFFF0FF0, dr7 := 0x400, cr2 := 0, xcr0 := 1, msrs := [], miscEnable := 0, tscAdjust := 0,
    lastVcpu := none, initDone := false, seamcallBlocked := false, shutdown := false, curVcpu := none, tlb := [],
    apicModeOk := true, intrPending := none, yieldAt := none, memWr := none, cr0 := 0x60000010, cr3 := 0, cr4 := 0, cr8 := 0,
    segs := SegReg.resets, gdtr := ⟨0, 0xFFFF⟩, idtr := ⟨0, 0xFFFF⟩ }

/-- The directly configurable CPUID fields of this edition (R688). -/
def CpuidConfig.standard : List CpuidConfig :=
  [⟨0x1, none, ⟨0, 0x00FF0000, 0x00044180, 0xB0400000⟩⟩,
   ⟨0x4, some 0, ⟨0xFFFFFFFF, 0xFFFFF000, 0xFFFFFFFF, 0xFFFFFFFF⟩⟩,
   ⟨0x4, some 1, ⟨0xFFFFFFFF, 0xFFFFF000, 0xFFFFFFFF, 0xFFFFFFFF⟩⟩,
   ⟨0x4, some 2, ⟨0xFFFFFFFF, 0xFFFFF000, 0xFFFFFFFF, 0xFFFFFFFF⟩⟩,
   ⟨0x4, some 3, ⟨0xFFFFFFFF, 0xFFFFF000, 0xFFFFFFFF, 0xFFFFFFFF⟩⟩,
   ⟨0x7, some 0, ⟨0, 0x00089108, 0x00002020, 0x00040000⟩⟩]

/-- The reference platform (95_test_vectors.md section 0), taken for `State.reset` only (log entry 2); every statement
is about an arbitrary platform. -/
def Platform.reference : Platform :=
  { lps := [⟨0, 0⟩, ⟨1, 0⟩, ⟨2, 1⟩, ⟨3, 1⟩], maxPkgs := 2, maxPa := 46, hkidBits := 6, numMkidKeys := 31,
    numTdxPrivKids := 32, cmrs := [(0x100000000, 0x100000000)], seamrrBase := 0x40000000, seamrrSize := 0x10000000,
    integrityMode := .ci, bootIntegrity := false, lmce := true, wbScope := .package, platformOk := none,
    platformLpOk := [], pinbasedMust1 := 0x16, procbasedMust1 := 0x0401E172, exitMust1 := 0x36DFF,
    entryMust1 := 0x11FF, cr0Fixed0 := 0x80000021, cr0Fixed1 := 0xFFFFFFFF, cr4Fixed0 := 0x2000,
    cr4Fixed1 := 0x3FF7FFF, nativeXfam := 0x7, nativeCr4Allowed := 0x3FF7FFF, nativeTscHz := 2000000000,
    cpusvn := List.replicate 16 0, teeTcbInfo := List.replicate 239 0, pasidLow := 0, pasidHigh := 0,
    archCapabilities := 0x16B, steppings := [⟨0, 8⟩, ⟨1, 8⟩], seamcallLength := 4, moduleAttributes := 0, vendorId := 0x8086,
    buildDate := 0x20220615, buildNum := 1, minorVersion := 0, majorVersion := 1, maxTdmrs := 64,
    maxReservedPerTdmr := 16, pamtEntrySize := 16, tdcsBaseSize := 16384, tdvpsBaseSize := 16384,
    attributesFixed0 := 0x8000000050000001, attributesFixed1 := 0, xfamFixed0 := 0x7, xfamFixed1 := 0x3,
    cpuidConfig := CpuidConfig.standard, tdmrInitChunk := 262144, epfGpaListSize := 32, epfThreshold := 6, singleStepExtraMax := 0,
    statusEpfEntryRefused := 0x80000200, statusSysConfigNotPending := 0xC0000504,
    statusKeyGenerationFailed := 0x80000800, shutdownLpRax := 0xC000050600000000, numCpuidValues := 48, mrtdContextCode := none,
    tdHkidEnc := none, septRootTdcx := 3, augNeedsFinalized := false,
    msrBitmapTdcx := 2, vapicPage := 1, veInfoPage := 2, entryNeedsSharedEptp := false, cpuid21OthersZero := false,
    cpuid7Edx30 := true, ucRanges := [], unbacked := [] }

/-- The machine right after the module is loaded (R42, R770 to R772): nothing initialised, memory with nothing
listed. -/
def State.reset : State :=
  { plat := Platform.reference, curLp := 0, schedule := [], lps := List.replicate 4 Lp.reset,
    sysState := .sysinitPending, seamDisabled := false, pkgConfigBitmap := 0, sampledTscAdjust := 0,
    globalHkid := 0, tdmrs := [], kot := [],
    wbt := [], ket := [], pamt4k := [], pamt2m := [], pamt1g := [], sept := [], tdrs := [], tdcss := [], vps := [],
    locks := [], envLocks := [], mem := ⟨[], [], [], []⟩, tsc := 0, entropyOk := true,
    raceLost := false, nextKey := 65537, tick := 0 }

end Sys2Proof.Machine
end

