-- ==== Sys2Proof/Machine/Memory.lean ====
section
/-! DEFINITION. Physical memory: HKIDs in addresses, the line-granular content model with keys and TD Owner bits, the
cache, and the primitives MemRead, MemWrite, MemWriteDirect (20_memory.md rules R240, R247, R270, R272, R275). -/

namespace Sys2Proof.Machine

/-! ## Addresses and HKIDs (R240, R50) -/

/-- The number of address bits below the HKID field. -/
def Platform.addrBits (p : Platform) : Nat := p.maxPa - p.hkidBits

/-- HkidOf(pa). -/
def hkidOf (p : Platform) (pa : Nat) : Nat := pa / 2 ^ p.addrBits % 2 ^ p.hkidBits

/-- AddrOf(pa). -/
def addrOf (p : Platform) (pa : Nat) : Nat := pa % 2 ^ p.addrBits

/-- WithHkid(a, h). -/
def withHkid (p : Platform) (a h : Nat) : Nat := h * 2 ^ p.addrBits + addrOf p a

/-- MIN_TDX_PRIVATE_HKID. -/
def Platform.minPrivateHkid (p : Platform) : Nat := p.numMkidKeys + 1

/-- MAX_HKID. -/
def Platform.maxHkid (p : Platform) : Nat := p.numMkidKeys + p.numTdxPrivKids

/-- An HKID above the shared range (R50). -/
def isPrivateHkid (p : Platform) (h : Nat) : Bool := decide (p.minPrivateHkid ≤ h)

/-- An HKID of the private range (Table 4.1). -/
def inPrivateRange (p : Platform) (h : Nat) : Bool := decide (p.minPrivateHkid ≤ h) && decide (h ≤ p.maxHkid)

/-! ## Logical processors -/

/-- Logical processor `i`. -/
def State.lpAt (s : State) (i : Nat) : Lp := s.lps.getD i Lp.reset

/-- The current logical processor. -/
def State.lp (s : State) : Lp := s.lpAt s.curLp

/-- Change logical processor `i`. -/
def State.modLpAt (s : State) (i : Nat) (f : Lp → Lp) : State := { s with lps := s.lps.modify i f }

/-- Change the current logical processor. -/
def State.modLp (s : State) (f : Lp → Lp) : State := s.modLpAt s.curLp f

/-- The package of a logical processor (R12). -/
def Platform.pkgOf (p : Platform) (i : Nat) : Nat := (p.lps.getD i ⟨0, 0⟩).pkg

/-- The core of a logical processor (R12). -/
def Platform.coreOf (p : Platform) (i : Nat) : Nat := (p.lps.getD i ⟨0, 0⟩).core

/-- The cache write-back scope a logical processor belongs to (R12, R47). -/
def Platform.scopeOf (p : Platform) (i : Nat) : Nat :=
  match p.wbScope with | .package => p.pkgOf i | .core => p.coreOf i

/-- The cache write-back scopes of the platform. -/
def Platform.scopes (p : Platform) : List Nat :=
  match p.wbScope with
  | .package => (p.lps.map (·.pkg)).eraseDups
  | .core => (p.lps.map (·.core)).eraseDups

/-- The packages of the platform. -/
def Platform.packages (p : Platform) : List Nat := (p.lps.map (·.pkg)).eraseDups

/-- The package of the current logical processor. -/
def State.pkg (s : State) : Nat := s.plat.pkgOf s.curLp

/-! ## Keys (R51, R272) -/

/-- The key of `Ket[pkg][hkid]` in the table. -/
def ketKey (pkg hkid : Nat) : Nat := pkg * 65536 + hkid

/-- `Ket[pkg][hkid]`: before anything has been configured a shared HKID has a key of its own and a private one has a
key under which nothing is ever written (log entry 7). -/
def ketAt (s : State) (pkg hkid : Nat) : KeyCfg :=
  (tblGet s.ket (ketKey pkg hkid)).getD
    ⟨.unconfigured, hkid, !isPrivateHkid s.plat hkid && s.plat.bootIntegrity⟩

/-- KeyOf(hkid): the key that the package of the current logical processor has for an HKID. That the package of the
logical processor that accesses a line serves it, when packages hold different keys for an HKID, is the model's choice:
R51 does not say which package's engine holds a line (log entry 55). -/
def keyOf (s : State) (hkid : Nat) : KeyCfg := ketAt s s.pkg hkid

/-- The package whose caches a write-back scope is part of (R12). -/
def Platform.scopePkg (p : Platform) (scope : Nat) : Nat :=
  match p.wbScope with
  | .package => scope
  | .core => ((p.lps.find? fun l => l.core == scope).map (·.pkg)).getD 0

/-! ## Cells, tags and cache -/

/-- The tag of a line nothing has written since module load (R272): stale key, owner bit 0. -/
def LineTag.initial : LineTag := ⟨staleKey, false, false⟩

/-- The byte in memory at an address, whatever its tag: an unlisted address holds 0 (log entry 8). -/
def cellAt (m : Memory) (a : Nat) : Byte := (tblGet m.cells a).getD 0

/-- The listed bytes of a run of bytes from address `a`. -/
def cellsOf : Nat → List Byte → List Host.Cell
  | _, [] => []
  | a, b :: bs => if b = 0 then cellsOf (a + 1) bs else (a, b) :: cellsOf (a + 1) bs

/-- Replace the bytes from `a` on; zero bytes are not listed. -/
def writeCells (cells : List Host.Cell) (a : Nat) (bs : List Byte) : List Host.Cell :=
  cells.filter (fun c => decide (c.1 < a)) ++ cellsOf a bs ++ cells.filter (fun c => decide (a + bs.length ≤ c.1))

/-- Set the bytes `[a, a+n)` to 0. -/
def zeroCells (cells : List Host.Cell) (a n : Nat) : List Host.Cell :=
  cells.filter fun c => decide (c.1 < a) || decide (a + n ≤ c.1)

/-- The tag in force at a line: that of the last change point at or below it. -/
def tagFrom (cur : LineTag) : Table LineTag → Nat → LineTag
  | [], _ => cur
  | (k, t) :: ts, line => if k ≤ line then tagFrom t ts line else cur

/-- The tag of a line. -/
def tagAt (m : Memory) (line : Nat) : LineTag := tagFrom LineTag.initial m.tags line

/-- Drop the change points that change nothing. -/
def normTags (cur : LineTag) : Table LineTag → Table LineTag
  | [] => []
  | (k, t) :: ts => if t = cur then normTags cur ts else (k, t) :: normTags t ts

/-- Give the lines `[lo, hi)` a tag. -/
def setTags (tags : Table LineTag) (lo hi : Nat) (t : LineTag) : Table LineTag :=
  if lo < hi then
    normTags LineTag.initial
      (tags.filter (fun e => decide (e.1 < lo)) ++ [(lo, t), (hi, tagFrom LineTag.initial tags hi)]
        ++ tags.filter (fun e => decide (hi < e.1)))
  else tags

/-- The key of a cache entry in the table. -/
def cacheKey (line hkid : Nat) : Nat := line * 65536 + hkid

/-- Drop the cache entries of the lines `[lo, hi)` under an HKID. -/
def dropCache (c : Table CacheEntry) (lo hi hkid : Nat) : Table CacheEntry :=
  c.filter fun e => !(decide (lo ≤ e.1 / 65536) && decide (e.1 / 65536 < hi) && e.1 % 65536 == hkid)

/-- The canonical form of the tags: rising, and every change point changes the tag. -/
def tagsWf (cur : LineTag) : Table LineTag → Bool
  | [] => true
  | (_, t) :: ts => decide (t ≠ cur) && tagsWf t ts

/-- The canonical form of memory: addresses strictly rising and no listed byte equal to 0, what an unlisted address
reads as; change points strictly rising and none idle; one cache entry per line and HKID. -/
def Memory.wf (m : Memory) : Bool :=
  tblWf m.cells && m.cells.all (fun c => c.2 != 0) && tblWf m.tags && tagsWf LineTag.initial m.tags && tblWf m.cache

/-! ## Reads (R270, R272) -/

/-- What memory answers for a line under an HKID. -/
inductive LineView where
  /-- the plaintext -/
  | data
  /-- zeros, with or without poison -/
  | zero (poison : Bool)
  /-- an unspecified value, the line being decrypted with the wrong key -/
  | garbage
  deriving DecidableEq, Repr

/-- The table of R272. -/
def lineView (s : State) (hkid line : Nat) : LineView :=
  let t := tagAt s.mem line
  let k := keyOf s hkid
  let ok := t.key == k.key && !t.bad
  let ci := s.plat.integrityMode == .ci
  if isPrivateHkid s.plat hkid then
    if !t.td then .zero true else if ok then .data else if ci then .zero true else .garbage
  else if t.td then .zero (ci && k.integrity)
  else if ok then .data
  else if ci && k.integrity then .zero true
  else .garbage

/-- Does a read of the line from memory under the HKID return poison. -/
def memPoison (s : State) (hkid line : Nat) : Bool := lineView s hkid line == .zero true

/-- Does a read of the line under the HKID return poison. A cached line is not read from memory (R275). -/
def linePoison (s : State) (hkid line : Nat) : Bool :=
  match tblGet s.mem.cache (cacheKey line hkid) with
  | some e => e.poison
  | none => memPoison s hkid line

/-- One byte read from memory under an HKID, the caches left aside. -/
def memByte (s : State) (hkid a : Nat) : Byte :=
  match lineView s hkid (a / 64) with
  | .data => cellAt s.mem a
  | .zero _ => 0
  | .garbage => Config.garbageByte s.tick a hkid

/-- One byte read under an HKID. -/
def readByte (s : State) (hkid a : Nat) : Byte :=
  match tblGet s.mem.cache (cacheKey (a / 64) hkid) with
  | some e => e.data.getD (a % 64) 0
  | none => memByte s hkid a

/-- MemRead: `n` bytes under an HKID, poison apart. -/
def readBytes (s : State) (hkid a n : Nat) : List Byte := (List.range n).map fun i => readByte s hkid (a + i)

/-- The lines that `[a, a+n)` touches. -/
def linesOf (a n : Nat) : List Nat := if n = 0 then [] else List.range' (a / 64) ((a + n - 1) / 64 + 1 - a / 64)

/-- Does a read of `[a, a+n)` return poison. -/
def poisoned (s : State) (hkid a n : Nat) : Bool := (linesOf a n).any fun l => linePoison s hkid l

/-- An 8-byte little-endian read. -/
def read64 (s : State) (hkid a : Nat) : Word := w64 (leValue (readBytes s hkid a 8))

/-! ## Writes (R247, R272, R275) -/

/-- The tag a write with an HKID by the engine of a package gives (R272). -/
def writeTagAt (s : State) (pkg hkid : Nat) : LineTag := ⟨(ketAt s pkg hkid).key, isPrivateHkid s.plat hkid, false⟩

/-- The tag a write with an HKID on the current logical processor gives (R272). -/
def writeTag (s : State) (hkid : Nat) : LineTag := writeTagAt s s.pkg hkid

/-- What is left of a range of possibly modified lines when the lines of `[a, a+n)` under an HKID are not. -/
def StaleRange.cut (a n hkid : Nat) (r : StaleRange) : List StaleRange :=
  if r.hkid = hkid ∧ overlaps r.base r.size a n = true then
    (if r.base < a then [{ r with size := a - r.base }] else [])
      ++ (if a + n < r.base + r.size then [{ r with base := a + n, size := r.base + r.size - (a + n) }] else [])
  else [r]

/-- No line of `[a, a+n)` is a possibly modified line of the module's under the HKID any more. -/
def cutStale (l : List StaleRange) (a n hkid : Nat) : List StaleRange := l.flatMap (StaleRange.cut a n hkid)

/-- MemWriteDirect of whole lines: 64-byte direct stores from the 64-byte aligned address `a`. -/
def writeDirect (s : State) (hkid a : Nat) (bs : List Byte) : State :=
  { s with mem :=
    { cells := writeCells s.mem.cells a bs
      tags := setTags s.mem.tags (a / 64) ((a + bs.length) / 64) (writeTag s hkid)
      cache := dropCache s.mem.cache (a / 64) ((a + bs.length) / 64) hkid
      stale := cutStale s.mem.stale a bs.length hkid } }

/-- MemWriteDirect of zeros to the lines of `[a, a+n)`. -/
def zeroDirect (s : State) (hkid a n : Nat) : State :=
  { s with mem :=
    { cells := zeroCells s.mem.cells a n
      tags := setTags s.mem.tags (a / 64) ((a + n) / 64) (writeTag s hkid)
      cache := dropCache s.mem.cache (a / 64) ((a + n) / 64) hkid
      stale := cutStale s.mem.stale a n hkid } }

/-- Write a cached line back to memory by the engine of a package (R275). -/
def writeBack (s : State) (pkg hkid line : Nat) (data : List Byte) : State :=
  { s with mem :=
    { s.mem with
      cells := writeCells s.mem.cells (line * 64) data
      tags := setTags s.mem.tags line (line + 1) (writeTagAt s pkg hkid) } }

/-- A line with the bytes `[a, a+bs.length)` replaced, the others as `old` gives them. -/
def mergeLine (old : Nat → Byte) (line a : Nat) (bs : List Byte) : List Byte :=
  (List.range 64).map fun i =>
    let x := line * 64 + i
    if a ≤ x ∧ x < a + bs.length then bs.getD (x - a) 0 else old x

/-- The line as the HKID reads it, with the bytes `[a, a+bs.length)` replaced. -/
def mergedLine (s : State) (hkid line a : Nat) (bs : List Byte) : List Byte := mergeLine (readByte s hkid) line a bs

/-- The cache after a cacheable write of the listed lines. -/
def cacheWrites (s : State) (hkid a : Nat) (bs : List Byte) : List Nat → Table CacheEntry → Table CacheEntry
  | [], c => c
  | l :: ls, c =>
    cacheWrites s hkid a bs ls
      (tblSet c (cacheKey l hkid) ⟨mergedLine s hkid l a bs, true, false, s.plat.scopeOf s.curLp⟩)

/-- MemWrite: an ordinary cacheable write; memory itself changes when the line is written back. -/
def writeCached (s : State) (hkid a : Nat) (bs : List Byte) : State :=
  { s with mem := { s.mem with cache := cacheWrites s hkid a bs (linesOf a bs.length) s.mem.cache } }

/-- Write whole lines to memory with an HKID. -/
def storeLines (s : State) (hkid : Nat) : List (Nat × List Byte) → State
  | [] => s
  | (l, d) :: rest => storeLines (writeBack s s.pkg hkid l d) hkid rest

/-- A write of uncacheable type: it bypasses the caches; a line written in part is read from memory first (R272,
R276). -/
def writeUncached (s : State) (hkid a : Nat) (bs : List Byte) : State :=
  storeLines s hkid ((linesOf a bs.length).map fun l => (l, mergeLine (memByte s hkid) l a bs))

/-- A device write (R279): to memory, and no cached copy of the line under the HKID stays. Where packages hold different
keys for the HKID, the key is that of the current logical processor's package: DESIGN CHOICE (log entry 55). -/
def writeDma (s : State) (hkid a : Nat) (bs : List Byte) : State :=
  let s1 := storeLines s hkid ((linesOf a bs.length).map fun l => (l, mergedLine s hkid l a bs))
  { s1 with mem :=
    { s1.mem with cache := dropCache s1.mem.cache (a / 64) (a / 64 + (linesOf a bs.length).length) hkid } }

/-- A write of the memory type given: uncacheable or write-back. -/
def writeTyped (s : State) (uc : Bool) (hkid a : Nat) (bs : List Byte) : State :=
  if uc then writeUncached s hkid a bs else writeCached s hkid a bs

/-- A read of the memory type given. -/
def readTyped (s : State) (uc : Bool) (hkid a n : Nat) : List Byte :=
  if uc then (List.range n).map fun i => memByte s hkid (a + i) else readBytes s hkid a n

/-- Does a read of the memory type given return poison. -/
def poisonedTyped (s : State) (uc : Bool) (hkid a n : Nat) : Bool :=
  if uc then (linesOf a n).any fun l => memPoison s hkid l else poisoned s hkid a n

/-- The MTRRs make `[a, a+n)`, or a part of it, uncacheable (R244). -/
def Platform.uncacheable (p : Platform) (a n : Nat) : Bool := p.ucRanges.any fun r => overlaps a n r.1 r.2

/-- There is memory behind `[a, a+n)` (R271). -/
def Platform.backed (p : Platform) (a n : Nat) : Bool := p.unbacked.all fun r => !overlaps a n r.1 r.2

/-- Evict one cache entry (R275): a modified line is first written to memory, by the engine of the package whose cache
holds it (log entry 55). -/
def evict (s : State) (line hkid : Nat) : State :=
  match tblGet s.mem.cache (cacheKey line hkid) with
  | none => s
  | some e =>
    let s1 := if e.modified then writeBack s (s.plat.scopePkg e.scope) hkid line e.data else s
    { s1 with mem := { s1.mem with cache := tblDel s1.mem.cache (cacheKey line hkid) } }

/-- Write back the modified entries of a list, keeping them as clean entries. -/
def cleanEntries : State → List (Nat × CacheEntry) → State
  | s, [] => s
  | s, (k, e) :: rest =>
    if e.modified then
      let s1 := writeBack s (s.plat.scopePkg e.scope) (k % 65536) (k / 65536) e.data
      cleanEntries { s1 with mem := { s1.mem with cache := tblSet s1.mem.cache k { e with modified := false } } } rest
    else cleanEntries s rest

/-- Write back and drop the entries of a list. -/
def flushEntries : State → List (Nat × CacheEntry) → State
  | s, [] => s
  | s, (k, _) :: rest => flushEntries (evict s (k / 65536) (k % 65536)) rest

/-- The cache entries of `[a, a+n)` under an HKID. -/
def entriesIn (s : State) (hkid a n : Nat) : List (Nat × CacheEntry) :=
  s.mem.cache.filter fun e =>
    decide (a / 64 ≤ e.1 / 65536) && decide (e.1 / 65536 < (a + n + 63) / 64) && e.1 % 65536 == hkid

/-! ## Lines that the module wrote in pages it no longer uses (R275, R781; log entry 56) -/

/-- The bytes of a line of the module's that is written back late: what it wrote there is not described. -/
def moduleLine (s : State) (line : Nat) : List Byte :=
  (List.range 64).map fun i => Config.moduleByte s.tick (line * 64 + i)

/-- Write back the lines of a list that are in fact modified: which ones they are is free. -/
def writeBackStale (s : State) (pkg hkid : Nat) : List Nat → State
  | [] => s
  | l :: ls =>
    writeBackStale
      (if bit (Config.freeWord s.tick (2 ^ 80 + cacheKey l hkid)) 0 then writeBack s pkg hkid l (moduleLine s l) else s)
      pkg hkid ls

/-- Write back the possibly modified lines of a write-back scope; they are no longer modified there. -/
def flushStaleScope (s : State) (scope : Nat) : List StaleRange → State
  | [] => s
  | r :: rest =>
    if r.scopes.contains scope then
      flushStaleScope (writeBackStale s (s.plat.scopePkg scope) r.hkid (linesOf r.base r.size)) scope rest
    else flushStaleScope s scope rest

/-- The possibly modified lines after a write-back of a scope. -/
def staleWithout (scope : Nat) (l : List StaleRange) : List StaleRange :=
  (l.map fun r => { r with scopes := r.scopes.filter fun x => x != scope }).filter fun r => !r.scopes.isEmpty

/-- Write back a scope's possibly modified lines and forget them. -/
def flushStale (s : State) (scope : Nat) : State :=
  let s1 := flushStaleScope s scope s.mem.stale
  { s1 with mem := { s1.mem with stale := staleWithout scope s1.mem.stale } }

/-- The scope whose cache may hold a possibly modified line, if there is one. -/
def staleScope (s : State) (line hkid : Nat) : Option Nat :=
  match s.mem.stale.find? fun r => r.hkid == hkid && inside (line * 64) 64 r.base r.size with
  | some r => r.scopes.head?
  | none => none

/-- Write back and forget those of the listed lines that may be modified under an HKID. -/
def flushStaleLines (s : State) (hkid : Nat) : List Nat → State
  | [] => s
  | l :: ls =>
    match staleScope s l hkid with
    | some scope =>
      let s1 := writeBackStale s (s.plat.scopePkg scope) hkid [l]
      flushStaleLines { s1 with mem := { s1.mem with stale := cutStale s1.mem.stale (l * 64) 64 hkid } } hkid ls
    | none => flushStaleLines s hkid ls

/-- Eviction of one possibly modified line. -/
def evictStale (s : State) (line hkid : Nat) : Option State :=
  match staleScope s line hkid with
  | some scope =>
    let s1 := writeBack s (s.plat.scopePkg scope) hkid line (moduleLine s line)
    some { s1 with mem := { s1.mem with stale := cutStale s1.mem.stale (line * 64) 64 hkid } }
  | none => none

/-- The module no longer uses `[base, base+size)`, which it wrote under an HKID: every line may still be modified in
every cache. -/
def State.addStale (s : State) (base size hkid : Nat) : State :=
  { s with mem :=
    { s.mem with stale := ⟨base, size, hkid, s.plat.scopes⟩ :: cutStale s.mem.stale base size hkid } }

end Sys2Proof.Machine
end

