-- ==== Sys2Proof/Machine/Status.lean ====
section
/-! DEFINITION. Completion status values, bits 63:32 of RAX (30_encoding.md rule R323), operand identifiers (R324) and
the status word (R322). -/

namespace Sys2Proof.Machine

namespace Status

/-- TDX_SUCCESS (R323). -/
def success : Nat := 0x00000000

/-- TDX_NON_RECOVERABLE_VCPU (R323). -/
def nonRecoverableVcpu : Nat := 0x40000001

/-- TDX_NON_RECOVERABLE_TD (R323). -/
def nonRecoverableTd : Nat := 0x40000002

/-- TDX_INTERRUPTED_RESUMABLE (R323). -/
def interruptedResumable : Nat := 0x80000003

/-- TDX_INTERRUPTED_RESTARTABLE (R323). -/
def interruptedRestartable : Nat := 0x80000004

/-- TDX_NON_RECOVERABLE_TD_FATAL (R323). -/
def nonRecoverableTdFatal : Nat := 0x40000005

/-- TDX_INVALID_RESUMPTION (R323). -/
def invalidResumption : Nat := 0xC0000006

/-- TDX_NON_RECOVERABLE_TD_NO_APIC (R323). -/
def nonRecoverableTdNoApic : Nat := 0xC0000007

/-- TDX_OPERAND_INVALID (R323). -/
def operandInvalid : Nat := 0xC0000100

/-- TDX_OPERAND_ADDR_RANGE_ERROR (R323). -/
def operandAddrRangeError : Nat := 0xC0000101

/-- TDX_OPERAND_BUSY (R323). -/
def operandBusy : Nat := 0x80000200

/-- TDX_PREVIOUS_TLB_EPOCH_BUSY (R323). -/
def previousTlbEpochBusy : Nat := 0x80000201

/-- TDX_SYS_BUSY (R323). -/
def sysBusy : Nat := 0x80000202

/-- TDX_PAGE_METADATA_INCORRECT (R323). -/
def pageMetadataIncorrect : Nat := 0xC0000300

/-- TDX_PAGE_ALREADY_FREE (R323). -/
def pageAlreadyFree : Nat := 0x00000301

/-- TDX_PAGE_NOT_OWNED_BY_TD (R323). -/
def pageNotOwnedByTd : Nat := 0xC0000302

/-- TDX_PAGE_NOT_FREE (R323). -/
def pageNotFree : Nat := 0xC0000303

/-- TDX_TD_ASSOCIATED_PAGES_EXIST (R323). -/
def tdAssociatedPagesExist : Nat := 0xC0000400

/-- TDX_SYSINIT_NOT_PENDING (R323). -/
def sysinitNotPending : Nat := 0xC0000500

/-- TDX_SYSINIT_NOT_DONE (R323). -/
def sysinitNotDone : Nat := 0xC0000501

/-- TDX_SYSINITLP_NOT_DONE (R323). -/
def sysinitlpNotDone : Nat := 0xC0000502

/-- TDX_SYSINITLP_DONE (R323). -/
def sysinitlpDone : Nat := 0xC0000503

/-- TDX_SYS_NOT_READY (R323). -/
def sysNotReady : Nat := 0xC0000505

/-- TDX_SYS_SHUTDOWN (R323). -/
def sysShutdown : Nat := 0xC0000506

/-- TDX_SYS_KEY_CONFIG_NOT_PENDING (R323). -/
def sysKeyConfigNotPending : Nat := 0xC0000507

/-- TDX_TD_NOT_INITIALIZED (R323). -/
def tdNotInitialized : Nat := 0xC0000600

/-- TDX_TD_INITIALIZED (R323). -/
def tdInitialized : Nat := 0xC0000601

/-- TDX_TD_NOT_FINALIZED (R323). -/
def tdNotFinalized : Nat := 0xC0000602

/-- TDX_TD_FINALIZED (R323). -/
def tdFinalized : Nat := 0xC0000603

/-- TDX_TD_FATAL (R323). -/
def tdFatal : Nat := 0xC0000604

/-- TDX_TD_NON_DEBUG (R323). -/
def tdNonDebug : Nat := 0xC0000605

/-- TDX_LIFECYCLE_STATE_INCORRECT (R323). -/
def lifecycleStateIncorrect : Nat := 0xC0000607

/-- TDX_TDCX_NUM_INCORRECT (R323). -/
def tdcxNumIncorrect : Nat := 0xC0000610

/-- TDX_VCPU_STATE_INCORRECT (R323). -/
def vcpuStateIncorrect : Nat := 0xC0000700

/-- TDX_VCPU_ASSOCIATED (R323). -/
def vcpuAssociated : Nat := 0x80000701

/-- TDX_VCPU_NOT_ASSOCIATED (R323). -/
def vcpuNotAssociated : Nat := 0x80000702

/-- TDX_TDVPX_NUM_INCORRECT (R323). -/
def tdvpxNumIncorrect : Nat := 0xC0000703

/-- TDX_NO_VALID_VE_INFO (R323). -/
def noValidVeInfo : Nat := 0xC0000703

/-- TDX_MAX_VCPUS_EXCEEDED (R323). -/
def maxVcpusExceeded : Nat := 0xC0000705

/-- TDX_TSC_ROLLBACK (R323). -/
def tscRollback : Nat := 0xC0000706

/-- TDX_FIELD_NOT_WRITABLE (R323). -/
def fieldNotWritable : Nat := 0xC0000720

/-- TDX_FIELD_NOT_READABLE (R323). -/
def fieldNotReadable : Nat := 0xC0000721

/-- TDX_TD_VMCS_FIELD_NOT_INITIALIZED (R323). -/
def tdVmcsFieldNotInitialized : Nat := 0xC0000730

/-- TDX_TD_KEYS_NOT_CONFIGURED (R323). -/
def tdKeysNotConfigured : Nat := 0x80000810

/-- TDX_KEY_STATE_INCORRECT (R323). -/
def keyStateIncorrect : Nat := 0xC0000811

/-- TDX_KEY_CONFIGURED (R323). -/
def keyConfigured : Nat := 0x00000815

/-- TDX_WBCACHE_NOT_COMPLETE (R323). -/
def wbcacheNotComplete : Nat := 0x80000817

/-- TDX_HKID_NOT_FREE (R323). -/
def hkidNotFree : Nat := 0xC0000820

/-- TDX_NO_HKID_READY_TO_WBCACHE (R323). -/
def noHkidReadyToWbcache : Nat := 0x00000821

/-- TDX_WBCACHE_RESUME_ERROR (R323). -/
def wbcacheResumeError : Nat := 0xC0000823

/-- TDX_FLUSHVP_NOT_DONE (R323). -/
def flushvpNotDone : Nat := 0x80000824

/-- TDX_NUM_ACTIVATED_HKIDS_NOT_SUPPORTED (R323). -/
def numActivatedHkidsNotSupported : Nat := 0xC0000825

/-- TDX_INCORRECT_CPUID_VALUE (R323). -/
def incorrectCpuidValue : Nat := 0xC0000900

/-- TDX_BOOT_NT4_SET (R323). -/
def bootNt4Set : Nat := 0xC0000901

/-- TDX_INCONSISTENT_CPUID_FIELD (R323). -/
def inconsistentCpuidField : Nat := 0xC0000902

/-- TDX_CPUID_MAX_SUBLEAVES_UNRECOGNIZED (R323). -/
def cpuidMaxSubleavesUnrecognized : Nat := 0xC0000903

/-- TDX_CPUID_LEAF_1F_FORMAT_UNRECOGNIZED (R323). -/
def cpuidLeaf1fFormatUnrecognized : Nat := 0xC0000904

/-- TDX_INVALID_WBINVD_SCOPE (R323). -/
def invalidWbinvdScope : Nat := 0xC0000905

/-- TDX_INVALID_PKG_ID (R323). -/
def invalidPkgId : Nat := 0xC0000906

/-- TDX_CPUID_LEAF_NOT_SUPPORTED (R323). -/
def cpuidLeafNotSupported : Nat := 0xC0000908

/-- TDX_SMRR_NOT_LOCKED (R323). -/
def smrrNotLocked : Nat := 0xC0000910

/-- TDX_INVALID_SMRR_CONFIGURATION (R323). -/
def invalidSmrrConfiguration : Nat := 0xC0000911

/-- TDX_SMRR_OVERLAPS_CMR (R323). -/
def smrrOverlapsCmr : Nat := 0xC0000912

/-- TDX_SMRR_LOCK_NOT_SUPPORTED (R323). -/
def smrrLockNotSupported : Nat := 0xC0000913

/-- TDX_SMRR_NOT_SUPPORTED (R323). -/
def smrrNotSupported : Nat := 0xC0000914

/-- TDX_INCONSISTENT_MSR (R323). -/
def inconsistentMsr : Nat := 0xC0000920

/-- TDX_INCORRECT_MSR_VALUE (R323). -/
def incorrectMsrValue : Nat := 0xC0000921

/-- TDX_SEAMREPORT_NOT_AVAILABLE (R323). -/
def seamreportNotAvailable : Nat := 0xC0000930

/-- TDX_INVALID_TDMR (R323). -/
def invalidTdmr : Nat := 0xC0000A00

/-- TDX_NON_ORDERED_TDMR (R323). -/
def nonOrderedTdmr : Nat := 0xC0000A01

/-- TDX_TDMR_OUTSIDE_CMRS (R323). -/
def tdmrOutsideCmrs : Nat := 0xC0000A02

/-- TDX_TDMR_ALREADY_INITIALIZED (R323). -/
def tdmrAlreadyInitialized : Nat := 0x00000A03

/-- TDX_INVALID_PAMT (R323). -/
def invalidPamt : Nat := 0xC0000A10

/-- TDX_PAMT_OUTSIDE_CMRS (R323). -/
def pamtOutsideCmrs : Nat := 0xC0000A11

/-- TDX_PAMT_OVERLAP (R323). -/
def pamtOverlap : Nat := 0xC0000A12

/-- TDX_INVALID_RESERVED_IN_TDMR (R323). -/
def invalidReservedInTdmr : Nat := 0xC0000A20

/-- TDX_NON_ORDERED_RESERVED_IN_TDMR (R323). -/
def nonOrderedReservedInTdmr : Nat := 0xC0000A21

/-- TDX_CMR_LIST_INVALID (R323). -/
def cmrListInvalid : Nat := 0xC0000A22

/-- TDX_EPT_WALK_FAILED (R323). -/
def eptWalkFailed : Nat := 0xC0000B00

/-- TDX_EPT_ENTRY_FREE (R323). -/
def eptEntryFree : Nat := 0xC0000B01

/-- TDX_EPT_ENTRY_NOT_FREE (R323). -/
def eptEntryNotFree : Nat := 0xC0000B02

/-- TDX_EPT_ENTRY_NOT_PRESENT (R323). -/
def eptEntryNotPresent : Nat := 0xC0000B03

/-- TDX_EPT_ENTRY_NOT_LEAF (R323). -/
def eptEntryNotLeaf : Nat := 0xC0000B04

/-- TDX_EPT_ENTRY_LEAF (R323). -/
def eptEntryLeaf : Nat := 0xC0000B05

/-- TDX_GPA_RANGE_NOT_BLOCKED (R323). -/
def gpaRangeNotBlocked : Nat := 0xC0000B06

/-- TDX_GPA_RANGE_ALREADY_BLOCKED (R323). -/
def gpaRangeAlreadyBlocked : Nat := 0x00000B07

/-- TDX_TLB_TRACKING_NOT_DONE (R323). -/
def tlbTrackingNotDone : Nat := 0xC0000B08

/-- TDX_EPT_INVALID_PROMOTE_CONDITIONS (R323). -/
def eptInvalidPromoteConditions : Nat := 0xC0000B09

/-- TDX_PAGE_ALREADY_ACCEPTED (R323). -/
def pageAlreadyAccepted : Nat := 0x00000B0A

/-- TDX_PAGE_SIZE_MISMATCH (R323). -/
def pageSizeMismatch : Nat := 0xC0000B0B

end Status

/-- The status word: NAME | details (R322). -/
def statusWord (value details : Nat) : Word := w64 (value * 2 ^ 32 + details % 2 ^ 32)

namespace Operand

/-- Operand identifier 0 (R324). -/
def rax : Nat := 0

/-- Operand identifier 1 (R324). -/
def rcx : Nat := 1

/-- Operand identifier 2 (R324). -/
def rdx : Nat := 2

/-- Operand identifier 3 (R324). -/
def rbx : Nat := 3

/-- Operand identifier 5 (R324). -/
def rbp : Nat := 5

/-- Operand identifier 6 (R324). -/
def rsi : Nat := 6

/-- Operand identifier 7 (R324). -/
def rdi : Nat := 7

/-- Operand identifier 8 (R324). -/
def r8 : Nat := 8

/-- Operand identifier 9 (R324). -/
def r9 : Nat := 9

/-- Operand identifier 10 (R324). -/
def r10 : Nat := 10

/-- Operand identifier 11 (R324). -/
def r11 : Nat := 11

/-- Operand identifier 12 (R324). -/
def r12 : Nat := 12

/-- Operand identifier 13 (R324). -/
def r13 : Nat := 13

/-- Operand identifier 14 (R324). -/
def r14 : Nat := 14

/-- Operand identifier 15 (R324). -/
def r15 : Nat := 15

/-- Operand identifier 64 (R324). -/
def attributes : Nat := 64

/-- Operand identifier 65 (R324). -/
def xfam : Nat := 65

/-- Operand identifier 66 (R324). -/
def execControls : Nat := 66

/-- Operand identifier 67 (R324). -/
def eptpControls : Nat := 67

/-- Operand identifier 68 (R324). -/
def maxVcpus : Nat := 68

/-- Operand identifier 69 (R324). -/
def cpuidConfig : Nat := 69

/-- Operand identifier 70 (R324). -/
def tscFrequency : Nat := 70

/-- Operand identifier 96 (R324). -/
def tdmrInfoPa : Nat := 96

/-- Operand identifier 128 (R324). -/
def tdr : Nat := 128

/-- Operand identifier 129 (R324). -/
def tdcx : Nat := 129

/-- Operand identifier 130 (R324). -/
def tdvpr : Nat := 130

/-- Operand identifier 131 (R324). -/
def tdvpx : Nat := 131

/-- Operand identifier 144 (R324). -/
def tdcs : Nat := 144

/-- Operand identifier 145 (R324). -/
def tdvps : Nat := 145

/-- Operand identifier 146 (R324). -/
def sept : Nat := 146

/-- Operand identifier 168 (R324). -/
def rtmr : Nat := 168

/-- Operand identifier 169 (R324). -/
def tdEpoch : Nat := 169

/-- Operand identifier 184 (R324). -/
def sys : Nat := 184

/-- Operand identifier 185 (R324). -/
def tdmr : Nat := 185

/-- Operand identifier 186 (R324). -/
def kot : Nat := 186

/-- Operand identifier 187 (R324). -/
def ket : Nat := 187

/-- Operand identifier 188 (R324). -/
def wbcache : Nat := 188

end Operand

end Sys2Proof.Machine
end

