-- ==== Sys2Proof/Machine/Ops.lean ====
section
/-! DEFINITION. The named operations over registers, locks, the PAMT and the control structures that the interface
functions share: how a function completes or aborts (30_encoding.md rules R322 to R326), CheckHpa, Lock, Pamt,
PamtWalk, CheckPamt (20_memory.md rules R245 to R251). -/

namespace Sys2Proof.Machine

/-! ## Registers -/

/-- The operand identifier of a register (R324). -/
def Reg.id : Reg → Nat
  | .rax => 0 | .rcx => 1 | .rdx => 2 | .rbx => 3 | .rbp => 5 | .rsi => 6 | .rdi => 7
  | .r8 => 8 | .r9 => 9 | .r10 => 10 | .r11 => 11 | .r12 => 12 | .r13 => 13 | .r14 => 14 | .r15 => 15

/-- Read a general register. -/
def Gprs.get (g : Gprs) : Reg → Word
  | .rax => g.rax | .rcx => g.rcx | .rdx => g.rdx | .rbx => g.rbx | .rbp => g.rbp | .rsi => g.rsi | .rdi => g.rdi
  | .r8 => g.r8 | .r9 => g.r9 | .r10 => g.r10 | .r11 => g.r11 | .r12 => g.r12 | .r13 => g.r13 | .r14 => g.r14
  | .r15 => g.r15

/-- Write a general register. -/
def Gprs.set (g : Gprs) (r : Reg) (v : Word) : Gprs :=
  match r with
  | .rax => { g with rax := v } | .rcx => { g with rcx := v } | .rdx => { g with rdx := v }
  | .rbx => { g with rbx := v } | .rbp => { g with rbp := v } | .rsi => { g with rsi := v }
  | .rdi => { g with rdi := v } | .r8 => { g with r8 := v } | .r9 => { g with r9 := v }
  | .r10 => { g with r10 := v } | .r11 => { g with r11 := v } | .r12 => { g with r12 := v }
  | .r13 => { g with r13 := v } | .r14 => { g with r14 := v } | .r15 => { g with r15 := v }

/-- Write several general registers, first to last. -/
def Gprs.setAll : Gprs → List (Reg × Word) → Gprs
  | g, [] => g
  | g, (r, v) :: rest => (g.set r v).setAll rest

/-- The general register with an architectural number (R168): number 4, RSP, is not one of them. -/
def Reg.ofId : Nat → Option Reg
  | 0 => some .rax | 1 => some .rcx | 2 => some .rdx | 3 => some .rbx | 5 => some .rbp | 6 => some .rsi
  | 7 => some .rdi | 8 => some .r8 | 9 => some .r9 | 10 => some .r10 | 11 => some .r11 | 12 => some .r12
  | 13 => some .r13 | 14 => some .r14 | 15 => some .r15 | _ => none

/-- A register of the host on the current logical processor: an operand of SEAMCALL. -/
def State.hreg (s : State) (r : Reg) : Word := s.lp.gprs.get r

/-! ## How a host-side function ends -/

/-- How a host-side function stops before its end. -/
inductive HostAbort where
  /-- completes with a status and the listed extended outputs, no other state changed (R322) -/
  | status (value details : Nat) (outs : List (Reg × Word))
  /-- the module consumes poison in SEAM root mode: unbreakable shutdown (R271, R751) -/
  | unbreakable
  /-- a fatal error of the module (R750) -/
  | fatal
  deriving DecidableEq, Repr

/-- A host-side function: it answers the state in which it has completed, or aborts. -/
abbrev Fn (α : Type) := Except HostAbort α

/-- Go on if the condition holds, else abort. -/
def req (c : Bool) (a : HostAbort) : Fn Unit := if c then .ok () else .error a

/-- The value of an option, or an abort. -/
def getOr {α : Type} (o : Option α) (a : HostAbort) : Fn α :=
  match o with
  | some x => .ok x
  | none => .error a

/-- NAME | details, with no extended output. -/
def bad (value details : Nat) : HostAbort := .status value details []

/-- SEAMRET: RAX holds the status, the listed registers their outputs, RIP is past SEAMCALL; nothing else of the
logical processor changes (R326). -/
def hostReturn (s : State) (value details : Nat) (outs : List (Reg × Word)) : State :=
  s.modLp fun l =>
    { l with gprs := (l.gprs.setAll outs).set .rax (statusWord value details), rip := l.rip + w64 s.plat.seamcallLength }

/-- VMfailInvalid: RFLAGS.CF is 1, every other register unchanged but RIP (R752). -/
def vmfailInvalid (s : State) : State :=
  s.modLp fun l => { l with rflags := vmfailFlags l.rflags, rip := l.rip + w64 s.plat.seamcallLength }

/-- The refusal of a SEAMCALL on a blocked logical processor (R752 (c), D35). -/
def blockedReturn (s : State) : State :=
  s.modLp fun l =>
    { l with gprs := l.gprs.set .rax s.plat.shutdownLpRax, rip := l.rip + w64 s.plat.seamcallLength }

/-- SEAM shutdown by a fatal error: TDX is disabled platform-wide, the logical processor leaves SEAM mode, and the host
goes on after SEAMCALL with VMfailInvalid (R750). -/
def fatalShutdown (s : State) : State :=
  vmfailInvalid ({ s with seamDisabled := true }.modLp fun l => { l with curVcpu := none })

/-! ## Locks (R246, R371) -/

/-- The held locks. -/
abbrev Locks := List (LockId × LockState)

/-- The state of a lock; none is Free. -/
def lockState : Locks → LockId → Option LockState
  | [], _ => none
  | (i, st) :: l, id => if i = id then some st else lockState l id

/-- Record the state of a lock. -/
def setLock : Locks → LockId → LockState → Locks
  | [], id, st => [(id, st)]
  | (i, st') :: l, id, st => if i = id then (id, st) :: l else (i, st') :: setLock l id st

/-- Acquire a lock; none when it is busy. There is no waiting (Table 20.4). -/
def acquire (l : Locks) (id : LockId) (m : LockMode) : Option Locks :=
  match lockState l id, m with
  | none, .shared => some ((id, .shared 1) :: l)
  | none, .exclusive => some ((id, .exclusive) :: l)
  | some (.shared n), .shared => some (setLock l id (.shared (n + 1)))
  | some _, _ => none

/-- Release a lock held in shared or exclusive mode. -/
def release (l : Locks) (id : LockId) : Locks :=
  match lockState l id with
  | some (.shared (n + 2)) => setLock l id (.shared (n + 1))
  | _ => l.filter fun e => e.1 != id

/-- Acquire a lock or abort with the given status. -/
def lockOr (l : Locks) (id : LockId) (m : LockMode) (value details : Nat) : Fn Locks :=
  getOr (acquire l id m) (bad value details)

/-- Acquire a lock or fail with TDX_OPERAND_BUSY and the operand id. -/
def lockOp (l : Locks) (id : LockId) (m : LockMode) (operand : Nat) : Fn Locks :=
  lockOr l id m Status.operandBusy operand

/-! ## Page sizes and the PAMT (R250, R251, R378) -/

/-- PageBytes(level): 4KB, 2MB, 1GB. -/
def pageBytes (level : Nat) : Nat := 2 ^ (12 + 9 * level)

/-- The base of the page of a size that contains an address. -/
def pageBase (a level : Nat) : Nat := a / pageBytes level * pageBytes level

/-- The entry of a page that is not directly assigned. -/
def PamtEntry.free : PamtEntry := ⟨.nda, 0, 0⟩

/-- The TDMR that contains an address (R44). -/
def tdmrOf (s : State) (a : Nat) : Option Tdmr :=
  s.tdmrs.find? fun t => decide (t.base ≤ a) && decide (a < t.base + t.size)

/-- A page in a reserved area of a TDMR (R44, PT_RSVD). -/
def inReserved (t : Tdmr) (a : Nat) : Bool :=
  t.reserved.any fun r => decide (t.base + r.1 ≤ a) && decide (a < t.base + r.1 + r.2)

/-- The 1GB block of an address lies in a TDMR and has been initialised (R245, D63). -/
def blockReady (s : State) (a : Nat) : Bool :=
  match tdmrOf s a with
  | some t => decide (pageBase a 2 + pageBytes 2 ≤ t.next)
  | none => false

/-- The PAMT table of a level. -/
def State.pamtTable (s : State) : Nat → Table PamtEntry
  | 0 => s.pamt4k
  | 1 => s.pamt2m
  | _ => s.pamt1g

/-- Pamt(hpa, size): a page of a reserved area is PT_RSVD at the 4KB level; an entry not listed is PT_NDA. -/
def pamtAt (s : State) (a level : Nat) : PamtEntry :=
  if level = 0 ∧ ((tdmrOf s a).any fun t => inReserved t a) = true then ⟨.rsvd, 0, 0⟩
  else (tblGet (s.pamtTable level) (pageBase a level)).getD PamtEntry.free

/-- Store a PAMT table entry, the free entry not being listed. -/
def pamtStore (t : Table PamtEntry) (a : Nat) (e : PamtEntry) : Table PamtEntry :=
  if e = PamtEntry.free then tblDel t a else tblSet t a e

/-- Set the PAMT entry of a page. -/
def State.setPamt (s : State) (a level : Nat) (e : PamtEntry) : State :=
  match level with
  | 0 => { s with pamt4k := pamtStore s.pamt4k a e }
  | 1 => { s with pamt2m := pamtStore s.pamt2m a e }
  | _ => { s with pamt1g := pamtStore s.pamt1g a e }

/-- Give a page its type and owner; BEPOCH stays as stored (R250, R481). -/
def State.assignPage (s : State) (a level : Nat) (pt : PageType) (owner : Nat) : State :=
  s.setPamt a level { pamtAt s a level with pt := pt, owner := owner }

/-- The page types of pages that the module itself writes: control structures and Secure EPT pages (R250). -/
def PageType.isModules (pt : PageType) : Bool :=
  pt == .tdr || pt == .tdcx || pt == .tdvpr || pt == .tdvpx || pt == .ept

/-- The HKID under which a page may have lines of the module's that are modified in a cache: the global private HKID for a
TDR page, else the HKID of the TD that owns it (R270, R244). A TD in teardown has freed its HKID, after
TDH.PHYMEM.CACHE.WB has written all of them back; its TDR alone is still written (R781). -/
def pageHkid (s : State) (e : PamtEntry) : Option Nat :=
  if !e.pt.isModules then none
  else if e.pt = .tdr then some s.globalHkid
  else
    match tblGet s.tdrs e.owner with
    | some t => if t.lifecycle = .teardown then none else some t.hkid
    | none => none

/-- PT <- PT_NDA: OWNER and BEPOCH stay as stored (R481). What the module wrote to the page may still be in a cache
(R275, R781). -/
def State.freePage (s : State) (a level : Nat) : State :=
  (match pageHkid s (pamtAt s a level) with
   | some h => s.addStale a (pageBytes level) h
   | none => s).setPamt a level { pamtAt s a level with pt := .nda }

/-- Record the TD epoch in the entry of a page (R426 step 9). -/
def State.setBepoch (s : State) (a level : Nat) (epoch : Word) : State :=
  s.setPamt a level { pamtAt s a level with bepoch := epoch }

/-- Assign `k` consecutive pages of a size from `a` on. -/
def assignPages (s : State) (a level : Nat) (pt : PageType) (owner : Nat) : Nat → State
  | 0 => s
  | k + 1 => (assignPages s a level pt owner k).assignPage (a + k * pageBytes level) level pt owner

/-- Free `k` consecutive pages of a size from `a` on. -/
def freePages (s : State) (a level : Nat) : Nat → State
  | 0 => s
  | k + 1 => (freePages s a level k).freePage (a + k * pageBytes level) level

/-- Remove the entries of the pages of one level in `[a, a+n)`. -/
def clearPamtRange (t : Table PamtEntry) (a n : Nat) : Table PamtEntry :=
  t.filter fun e => decide (e.1 < a) || decide (a + n ≤ e.1)

/-- PamtWalk(hpa): the entry that assigns the page, and its page size. -/
def pamtWalk (s : State) (a : Nat) : PamtEntry × Nat :=
  if (pamtAt s a 2).pt ≠ .nda then (pamtAt s a 2, 2)
  else if (pamtAt s a 1).pt ≠ .nda then (pamtAt s a 1, 1)
  else (pamtAt s a 0, 0)

/-- Every 4KB page of `[a, a+n)` is PT_NDA at the 4KB level. -/
def all4kFree (s : State) (a n : Nat) : Bool :=
  s.pamt4k.all (fun e => decide (e.1 < a) || decide (a + n ≤ e.1) || e.2.pt == .nda)
    && s.tdmrs.all (fun t => t.reserved.all fun r => !overlaps (t.base + r.1) r.2 a n)

/-- Free(hpa, size) for 4KB and 2MB (R251). -/
def pageFree (s : State) (a level : Nat) : Bool :=
  (pamtAt s a 2).pt == .nda && (pamtAt s a 1).pt == .nda
    && (if level = 0 then (pamtAt s a 0).pt == .nda else all4kFree s a (pageBytes level))

/-- CheckPamt with a page type other than PT_NDA: the page is assigned at this size with this type. -/
def pageIs (s : State) (a level : Nat) (pt : PageType) : Bool :=
  (pamtWalk s a).2 == level && (pamtWalk s a).1.pt == pt

/-- The address of the PAMT entry of a page in its array (R251). -/
def pamtEntryAddr (s : State) (t : Tdmr) (a level : Nat) : Nat :=
  (match level with | 0 => t.pamt4kBase | 1 => t.pamt2mBase | _ => t.pamt1gBase)
    + (a - t.base) / pageBytes level * s.plat.pamtEntrySize

/-- The module can read the three PAMT entries of a page without consuming poison (R271). That the entries of levels which
PamtWalk (R251) does not visit count as read is a DESIGN CHOICE (log entries 81 and 85). -/
def pamtReadable (s : State) (a : Nat) : Bool :=
  match tdmrOf s a with
  | some t => [0, 1, 2].all fun l => !poisoned s s.globalHkid (pamtEntryAddr s t a l) s.plat.pamtEntrySize
  | none => true

/-- The module can read the 512 PAMT_4K entries of a 2MB page without consuming poison: CheckPamt reads every one of them
(R251, R271, R785). -/
def pamtRangeReadable (s : State) (a : Nat) : Bool :=
  match tdmrOf s a with
  | some t => !poisoned s s.globalHkid (pamtEntryAddr s t a 0) (512 * s.plat.pamtEntrySize)
  | none => true

/-! ## Operands given by HPA (R245, R246) -/

/-- CheckHpa for an operand with private or opaque semantics; the PAMT entries are then read. That those of all three levels
are (log entry 85), and that poison in one of them shows before a busy lock of the operand and before the tests of later
operands (log entry 83), is a DESIGN CHOICE. -/
def checkHpa (s : State) (id : Nat) (pa : Word) (align : Nat) : Fn Nat := do
  req (decide (pa.toNat < 2 ^ s.plat.maxPa) && isAligned pa.toNat align && hkidOf s.plat pa.toNat == 0)
    (bad Status.operandInvalid id)
  req (blockReady s pa.toNat) (bad Status.operandAddrRangeError id)
  req (pamtReadable s pa.toNat) .unbreakable
  pure pa.toNat

/-- CheckHpa for an operand with shared semantics: the address carries a shared HKID. -/
def checkShared (s : State) (id : Nat) (pa : Word) (align : Nat) : Fn Nat := do
  req (decide (pa.toNat < 2 ^ s.plat.maxPa) && isAligned pa.toNat align && !isPrivateHkid s.plat (hkidOf s.plat pa.toNat))
    (bad Status.operandInvalid id)
  pure pa.toNat

/-- A shared operand of `n` bytes has the uncacheable memory type, by the MTRRs (R244). -/
def sharedUc (s : State) (pa n : Nat) : Bool := s.plat.uncacheable (addrOf s.plat pa) n

/-- The bytes of a shared operand, read once under its own HKID with the memory type of the MTRRs (R244, R276). -/
def sharedBytes (s : State) (pa n : Nat) : List Byte :=
  readTyped s (sharedUc s pa n) (hkidOf s.plat pa) (addrOf s.plat pa) n

/-- The module can read a shared operand: there is memory behind it, and no poison in it (R271). -/
def sharedReadable (s : State) (pa n : Nat) : Bool :=
  s.plat.backed (addrOf s.plat pa) n && !poisonedTyped s (sharedUc s pa n) (hkidOf s.plat pa) (addrOf s.plat pa) n

/-- The bytes of a shared operand; poison, or no memory, is the module's unbreakable shutdown (R271). -/
def readShared (s : State) (pa n : Nat) : Fn (List Byte) := do
  req (sharedReadable s pa n) .unbreakable
  pure (sharedBytes s pa n)

/-- There is memory behind a shared operand that the module writes (R271). -/
def reqBacked (s : State) (pa n : Nat) : Fn Unit := req (s.plat.backed (addrOf s.plat pa) n) .unbreakable

/-- Write a shared operand: an ordinary store with its own HKID and memory type (R244). -/
def writeShared (s : State) (pa : Nat) (bs : List Byte) : State :=
  writeTyped s (sharedUc s pa bs.length) (hkidOf s.plat pa) (addrOf s.plat pa) bs

/-- Lock a 4KB page operand: its 1GB and 2MB blocks, then the page (R246, D65). -/
def lockPage4k (l : Locks) (a : Nat) (m above : LockMode) (id : Nat) : Fn Locks := do
  let l ← lockOp l (.pamt1g (pageBase a 2)) above id
  let l ← lockOp l (.pamt2m (pageBase a 1)) above id
  lockOp l (.pamt4k a) m id

/-- The lock of the PAMT entry of a page of a size. -/
def pamtLock (a : Nat) : Nat → LockId
  | 0 => .pamt4k a
  | 1 => .pamt2m a
  | _ => .pamt1g a

/-- Lock a page operand of a size: the larger blocks that contain it, then the page. -/
def lockPage (l : Locks) (a level : Nat) (m above : LockMode) (id : Nat) : Fn Locks :=
  match level with
  | 0 => lockPage4k l a m above id
  | 1 => do
    let l ← lockOp l (.pamt1g (pageBase a 2)) above id
    lockOp l (.pamt2m a) m id
  | _ => lockOp l (.pamt1g a) m id

/-! ## Control structures -/

/-- The module can read a 4KB control-structure or Secure EPT page under an HKID without consuming poison (R271). -/
def pageReadable (s : State) (hkid a : Nat) : Bool := !poisoned s hkid a 4096

/-- Change a TDR. -/
def State.modTdr (s : State) (t : Nat) (f : Tdr → Tdr) : State := { s with tdrs := tblMod s.tdrs t f }

/-- Change a TDCS. -/
def State.modTdcs (s : State) (t : Nat) (f : Tdcs → Tdcs) : State := { s with tdcss := tblMod s.tdcss t f }

/-- Change a TDVPS. -/
def State.modVp (s : State) (v : Nat) (f : Tdvps → Tdvps) : State := { s with vps := tblMod s.vps v f }

/-- The number of TDCX pages TDH.MNG.INIT needs (R12): the division is exact, TDCS_BASE_SIZE being a multiple of 4096
(93_implementation_defined.md section 1.2). -/
def Platform.tdcxRequired (p : Platform) : Nat := p.tdcsBaseSize / 4096

/-- The number of TDVPX pages of a VCPU (R12): TDVPS_BASE_SIZE is a multiple of 4096
(93_implementation_defined.md section 1.2). -/
def Platform.tdvpxRequired (p : Platform) : Nat := p.tdvpsBaseSize / 4096 - 1

/-! ## TD VMCS fields by name (R189) -/

namespace Vmcs

/-- VPID (R189). -/
def vpid : Nat := 0x0000

/-- Posted-interrupt notification vector (R189). -/
def pirVector : Nat := 0x0002

/-- EPTP index (R189). -/
def eptpIndex : Nat := 0x0004

/-- Guest interrupt status (R189). -/
def guestInterruptStatus : Nat := 0x0810

/-- Guest UINV (R189). -/
def uinv : Nat := 0x0814

/-- MSR-bitmap address (R189). -/
def msrBitmap : Nat := 0x2004

/-- PML address (R189). -/
def pmlAddress : Nat := 0x200E

/-- TSC offset (R189). -/
def tscOffset : Nat := 0x2010

/-- Virtual-APIC address (R189). -/
def virtualApic : Nat := 0x2012

/-- Posted-interrupt descriptor address (R189). -/
def pidAddress : Nat := 0x2016

/-- VM-function controls (R189). -/
def vmfunc : Nat := 0x2018

/-- EPTP (R189). -/
def eptp : Nat := 0x201A

/-- Virtualization-exception information address (R189). -/
def veInfo : Nat := 0x202A

/-- TSC multiplier (R189). -/
def tscMultiplier : Nat := 0x2032

/-- Tertiary processor-based controls (R189). -/
def tertiary : Nat := 0x2034

/-- Shared EPTP (R189). -/
def sharedEptp : Nat := 0x203C

/-- Guest-physical address (R189). -/
def gpa : Nat := 0x2400

/-- Guest IA32_DEBUGCTL (R189). -/
def debugctl : Nat := 0x2802

/-- Guest IA32_PAT (R189). -/
def pat : Nat := 0x2804

/-- Guest IA32_EFER (R189). -/
def efer : Nat := 0x2806

/-- Guest IA32_PERF_GLOBAL_CTRL (R189). -/
def perfGlobalCtrl : Nat := 0x2808

/-- Guest IA32_RTIT_CTL (R189). -/
def rtitCtl : Nat := 0x2814

/-- Guest IA32_LBR_CTL (R189). -/
def lbrCtl : Nat := 0x2816

/-- Guest IA32_PKRS (R189). -/
def pkrs : Nat := 0x2818

/-- Pin-based controls (R189). -/
def pinbased : Nat := 0x4000

/-- Primary processor-based controls (R189). -/
def procbased : Nat := 0x4002

/-- Exception bitmap (R189). -/
def exceptionBitmap : Nat := 0x4004

/-- VM-exit controls (R189). -/
def exitControls : Nat := 0x400C

/-- VM-entry controls (R189). -/
def entryControls : Nat := 0x4012

/-- VM-entry interruption information (R189). -/
def entryIntrInfo : Nat := 0x4016

/-- VM-entry exception error code (R189). -/
def entryErrorCode : Nat := 0x4018

/-- VM-entry instruction length (R189). -/
def entryInstrLength : Nat := 0x401A

/-- Secondary processor-based controls (R189). -/
def secondary : Nat := 0x401E

/-- Notify window (R189). -/
def notifyWindow : Nat := 0x4024

/-- Exit reason (R189). -/
def exitReason : Nat := 0x4402

/-- VM-instruction error (R189). -/
def instrError : Nat := 0x4400

/-- VM-exit interruption information (R189). -/
def exitIntrInfo : Nat := 0x4404

/-- VM-exit interruption error code (R189). -/
def exitIntrError : Nat := 0x4406

/-- IDT-vectoring information (R189). -/
def idtVectoring : Nat := 0x4408

/-- IDT-vectoring error code (R189). -/
def idtError : Nat := 0x440A

/-- VM-exit instruction length (R189). -/
def exitInstrLength : Nat := 0x440C

/-- VM-exit instruction information (R189). -/
def exitInstrInfo : Nat := 0x440E

/-- Guest CS access rights (R189). -/
def csAccess : Nat := 0x4816

/-- Guest interruptibility state (R189). -/
def interruptibility : Nat := 0x4824

/-- Guest activity state (R189). -/
def activity : Nat := 0x4826

/-- Guest IA32_SYSENTER_CS (R189). -/
def sysenterCs : Nat := 0x482A

/-- CR0 guest/host mask (R189). -/
def cr0Mask : Nat := 0x6000

/-- CR4 guest/host mask (R189). -/
def cr4Mask : Nat := 0x6002

/-- CR0 read shadow (R189). -/
def cr0Shadow : Nat := 0x6004

/-- CR4 read shadow (R189). -/
def cr4Shadow : Nat := 0x6006

/-- Exit qualification (R189). -/
def exitQualification : Nat := 0x6400

/-- I/O RCX (R189). -/
def ioRcx : Nat := 0x6402

/-- I/O RSI (R189). -/
def ioRsi : Nat := 0x6404

/-- I/O RDI (R189). -/
def ioRdi : Nat := 0x6406

/-- I/O RIP (R189). -/
def ioRip : Nat := 0x6408

/-- Guest-linear address (R189). -/
def gla : Nat := 0x640A

/-- Guest CR0 (R189). -/
def cr0 : Nat := 0x6800

/-- Guest CR3 (R189). -/
def cr3 : Nat := 0x6802

/-- Guest CR4 (R189). -/
def cr4 : Nat := 0x6804

/-- Guest DR7 (R189). -/
def dr7 : Nat := 0x681A

/-- Guest RSP (R189). -/
def rsp : Nat := 0x681C

/-- Guest RIP (R189). -/
def rip : Nat := 0x681E

/-- Guest RFLAGS (R189). -/
def rflags : Nat := 0x6820

/-- Guest pending debug exceptions (R189). -/
def pendingDebug : Nat := 0x6822

/-- Guest IA32_SYSENTER_ESP (R189). -/
def sysenterEsp : Nat := 0x6824

/-- Guest IA32_SYSENTER_EIP (R189). -/
def sysenterEip : Nat := 0x6826

/-- Guest IA32_S_CET (R189). -/
def sCet : Nat := 0x6828

/-- Guest SSP (R189). -/
def ssp : Nat := 0x682A

/-- Guest IA32_INTERRUPT_SSP_TABLE_ADDR (R189). -/
def intSspTable : Nat := 0x682C

end Vmcs

/-- Read a TD VMCS field. -/
def Tdvps.vm (v : Tdvps) (field : Nat) : Word := regGet v.vmcs field

/-- Write a TD VMCS field. -/
def Tdvps.setVm (v : Tdvps) (field : Nat) (x : Word) : Tdvps := { v with vmcs := regSet v.vmcs field x }

/-- Write several TD VMCS fields. -/
def Tdvps.setVms (v : Tdvps) (fields : List (Nat × Word)) : Tdvps := { v with vmcs := regSetAll v.vmcs fields }

/-! ## Where the guest of the current logical processor is -/

/-- The TDR that owns a VCPU: the OWNER of its TDVPR page's PAMT entry (R124, R512). -/
def State.ownerOf (s : State) (v : Nat) : Nat := (pamtAt s v 0).owner

/-- ATTRIBUTES.DEBUG of a TD (R384). -/
def Tdcs.debug (c : Tdcs) : Bool := bit c.attributes 0

/-- ATTRIBUTES.SEPT_VE_DISABLE (R384). -/
def Tdcs.septVeDisable (c : Tdcs) : Bool := bit c.attributes 28

/-- ATTRIBUTES.PKS (R384). -/
def Tdcs.pks (c : Tdcs) : Bool := bit c.attributes 30

/-- ATTRIBUTES.KL (R384). -/
def Tdcs.kl (c : Tdcs) : Bool := bit c.attributes 31

/-- ATTRIBUTES.PERFMON (R384). -/
def Tdcs.perfmon (c : Tdcs) : Bool := bit c.attributes 63

/-- The stored CPUID values of an entry of TDCS.CPUID_VALUES (R130); the order of the entries is R690's. -/
def Tdcs.cpuidAt (c : Tdcs) (i : Nat) : CpuidRegs := c.cpuidValues.getD i ⟨0, 0, 0, 0⟩

/-- Virtual CPUID(7,0).ECX[5], WAITPKG. -/
def Tdcs.waitpkg (c : Tdcs) : Bool := (c.cpuidAt 8).ecx.getLsbD 5

/-- Virtual CPUID(7,0).EDX[18], PCONFIG. -/
def Tdcs.pconfig (c : Tdcs) : Bool := (c.cpuidAt 8).edx.getLsbD 18

/-- Virtual CPUID(0xD,1).EAX[4], XFD. -/
def Tdcs.xfd (c : Tdcs) : Bool := (c.cpuidAt 13).eax.getLsbD 4

/-! ## Taking an exception in the guest (R710, R711) -/

/-- An instruction has completed, or an event has been delivered: with the monitor trap flag set, its VM exit is pending before
the next instruction (R642; when it is pending is the SDM's, log entry 82). -/
def Tdvps.trace (v : Tdvps) : Tdvps := { v with mtfPending := bit (v.vm Vmcs.procbased) 27 }

/-- The guest has made progress: the zero-step counters start again (R746). -/
def Tdvps.progress (v : Tdvps) : Tdvps :=
  { v with possiblyEpfStepping := 0, lastEpfGpaListIdx := 0, event := none }

/-- The event's guest handler runs next (R570); the delivery is progress (R746). -/
def Tdvps.deliver (v : Tdvps) (vector : Nat) (error : Option Word) : Tdvps :=
  { v.progress with event := some (vector, error) }.trace

/-- Inject a hardware exception: the VM-entry interruption information names it (type 3, valid), RIP stays at the
causing instruction (R711). R186 gives no value for the VM-entry instruction length that the module writes: it stays as it
is, 0 since TDH.VP.INIT. DESIGN CHOICE (log entry 15). -/
def injectException (v : Tdvps) (vector : Nat) (error : Option Word) : Tdvps :=
  (v.setVms [(Vmcs.entryIntrInfo, w64 (0x80000300 + vector + if error.isSome then 0x800 else 0)),
    (Vmcs.entryErrorCode, error.getD 0)]).deliver vector error

/-- #UD (R711). -/
def injectUd (v : Tdvps) : Tdvps := injectException v 6 none

/-- #GP(0) (R711). -/
def injectGp0 (v : Tdvps) : Tdvps := injectException v 13 (some 0)

/-- #DF, whose error code is 0 (R710). -/
def injectDf (v : Tdvps) : Tdvps := injectException v 8 (some 0)

/-- VE_INFO filled from an exit record (R710). -/
def VeInfo.ofExit (x : VmExit) : VeInfo :=
  { exitReason := x.reason &&& 0xFFFF, valid := 0xFFFFFFFF, exitQualification := x.qualification, gla := x.gla,
    gpa := x.gpa, eptpIndex := 0, instructionLength := x.instrLength &&& 0xFFFFFFFF,
    instructionInformation := x.instrInfo &&& 0xFFFFFFFF }

/-- InjectVE: #VE with the record, or #DF when the guest has not yet read the previous one (R710). -/
def injectVe (v : Tdvps) (x : VmExit) : Tdvps :=
  if v.veInfo.valid ≠ 0 then injectDf v else injectException { v with veInfo := VeInfo.ofExit x } 20 none

/-- Inject a virtual NMI (R725): type NMI, vector 2; PEND_NMI is cleared and virtual-NMI blocking, bit 3 of the
interruptibility state, becomes 1. -/
def injectNmi (v : Tdvps) : Tdvps :=
  ({ v with pendNmi := false }.setVms
    [(Vmcs.entryIntrInfo, 0x80000202), (Vmcs.entryErrorCode, 0),
     (Vmcs.interruptibility, v.vm Vmcs.interruptibility ||| 8)]).deliver 2 none

/-- What the CPU writes on every VM exit (R187), and "IA-32e mode guest" following IA32_EFER.LMA (R186). An event
being injected is gone from the VM-entry field, and so is a pending monitor-trap-flag VM exit. -/
def recordExit (v : Tdvps) (x : VmExit) : Tdvps :=
  { v with mtfPending := false }.setVms [(Vmcs.exitReason, x.reason), (Vmcs.exitQualification, x.qualification), (Vmcs.gla, x.gla),
    (Vmcs.gpa, x.gpa), (Vmcs.exitIntrInfo, x.intrInfo), (Vmcs.exitIntrError, x.intrError),
    (Vmcs.idtVectoring, x.idtVectoring), (Vmcs.idtError, x.idtError), (Vmcs.exitInstrLength, x.instrLength),
    (Vmcs.exitInstrInfo, x.instrInfo), (Vmcs.ioRcx, x.ioRcx), (Vmcs.ioRsi, x.ioRsi), (Vmcs.ioRdi, x.ioRdi),
    (Vmcs.ioRip, x.ioRip), (Vmcs.instrError, x.instrError),
    (Vmcs.entryIntrInfo, v.vm Vmcs.entryIntrInfo &&& 0x7FFFFFFF),
    (Vmcs.entryControls, mergeMask (v.vm Vmcs.entryControls) (bitAt (bit (v.vm Vmcs.efer) 10) 9) 0x200)]

/-! ## Asynchronous TD exit (R700, R702) -/

/-- The status class of a TD exit (R701). -/
inductive ExitClass where
  | success | nonRecoverableVcpu | nonRecoverableTd | nonRecoverableTdFatal | wrongApicMode
  deriving DecidableEq, Repr

/-- The value of a class, bits 63:32 of RAX (R701). -/
def ExitClass.value : ExitClass → Nat
  | .success => Status.success
  | .nonRecoverableVcpu => Status.nonRecoverableVcpu
  | .nonRecoverableTd => Status.nonRecoverableTd
  | .nonRecoverableTdFatal => Status.nonRecoverableTdFatal
  | .wrongApicMode => Status.nonRecoverableTdNoApic

/-- A class that disables the whole TD (R701, D85). -/
def ExitClass.tdScope : ExitClass → Bool
  | .nonRecoverableTd | .nonRecoverableTdFatal | .wrongApicMode => true
  | _ => false

/-- ExitReasonOut: the basic reason and bit 26 (R702). -/
def exitReasonOut (x : VmExit) : Word := x.reason &&& 0x0400FFFF

/-- The basic exit reason. -/
def VmExit.basic (x : VmExit) : Nat := bitsOf x.reason 15 0

/-- ExitQualOut: bits 12:7 are cleared for an EPT violation (R702). -/
def exitQualOut (x : VmExit) : Word := if x.basic = 48 then x.qualification &&& ~~~0x1F80 else x.qualification

/-- GpaOut: the GPA without its offset for an EPT violation or misconfiguration, else 0 (R702). -/
def gpaOut (x : VmExit) : Word := if x.basic = 48 ∨ x.basic = 49 then x.gpa &&& ~~~0xFFF else 0

/-- IntrInfoOut: for basic reasons 0 and 1, else 0 (R702). -/
def intrInfoOut (x : VmExit) : Word := if x.basic = 0 ∨ x.basic = 1 then x.intrInfo &&& 0xFFFFFFFF else 0

/-- The MSRs of Table 22.162 that a TD exit gives their INIT value when the TD may use the feature (R512): ranges
`[lo, hi]` with the condition. IA32_DEBUGCTL and IA32_XSS are treated apart. The table lists IA32_A_PMCx (0x4C1 to 0x4C8) and not
IA32_PMCx (0xC1 to 0xC8), the legacy names of the same counters (R641): the host's 0xC1 to 0xC8 keep their values at a TD exit,
and the host's MSR table keeps the two names apart. DESIGN CHOICE (log entry 75). -/
def exitMsrRanges (c : Tdcs) : List (Nat × Nat × Bool) :=
  [(0xE1, 0xE1, c.waitpkg), (0x186, 0x18D, c.perfmon), (0x1A6, 0x1A7, c.perfmon), (0x1C4, 0x1C5, c.xfd),
   (0x309, 0x30C, c.perfmon), (0x329, 0x329, c.perfmon), (0x38D, 0x38F, c.perfmon), (0x3F1, 0x3F2, c.perfmon),
   (0x3F6, 0x3F7, c.perfmon), (0x4C1, 0x4C8, c.perfmon), (0x560, 0x561, bit c.xfam 8), (0x570, 0x572, bit c.xfam 8),
   (0x580, 0x587, bit c.xfam 8), (0x600, 0x600, true), (0x6A0, 0x6A0, bit c.xfam 11 && bit c.xfam 12),
   (0x6A4, 0x6A7, bit c.xfam 11 && bit c.xfam 12), (0x985, 0x98A, bit c.xfam 14), (0x1200, 0x12FF, bit c.xfam 15),
   (0x14CE, 0x14CF, bit c.xfam 15), (0x1500, 0x15FF, bit c.xfam 15), (0x1600, 0x16FF, bit c.xfam 15),
   (0xC0000081, 0xC0000082, true), (0xC0000084, 0xC0000084, true), (0xC0000102, 0xC0000103, true)]

/-- The MSR indices that receive their INIT value. -/
def exitMsrs (c : Tdcs) : List Nat :=
  (exitMsrRanges c).flatMap fun r => if r.2.2 then List.range' r.1 (r.2.1 + 1 - r.1) else []

/-- The host MSRs after a TD exit (Table 22.162, R512). -/
def msrsAfterExit (c : Tdcs) (m : RegFile) : RegFile :=
  let m1 := regSetAll m ((exitMsrs c).map fun i => (i, Config.msrInit i))
  let m2 := regSet m1 0x1D9 (mergeMask (Config.msrInit 0x1D9) (regGet m 0x1D9) 0x7002)
  regSet m2 0xDA0 (c.xfam &&& 0x1FD00)

/-- The component of an extended-state element of the host (`Lp.ext`). -/
def extComponent (key : Nat) : Nat := key / 65536

/-- The extended state after the components of XFAM have been set to their INIT state: an element at its INIT value
is not listed (R700 step 6). -/
def extInit (xfam : Word) (ext : RegFile) : RegFile := ext.filter fun e => !bit xfam (extComponent e.1)

/-- The host side of a TD exit, GPRs apart: CR2, the debug registers, XCR0, IA32_XSS and the MSRs by the TD's XFAM. The
extended state that is cleared is what either the TD or the VCPU may use: Tables 22.160 and 22.161 name TDCS.XFAM, R591
the VCPU's own XFAM, which a debugger may have changed (R700 step 6, R512). -/
def Lp.afterExit (l : Lp) (c : Tdcs) (xfam : Word) : Lp :=
  { l with dr0 := 0, dr1 := 0, dr2 := 0, dr3 := 0, dr6 := 0xFFFF0FF0, dr7 := 0x400, cr2 := 0,
           xcr0 := c.xfam &&& 0x2FF, msrs := msrsAfterExit c l.msrs, ext := extInit (xfam ||| c.xfam) l.ext,
           curVcpu := none }

/-! ## The guest's extended state in XBUFF (R205; the XSAVE format is the family's, log entry 57) -/

/-- The state component that an 8-byte element of the XSAVES area of an XFAM belongs to: x87 state and SSE state in the
legacy region (MXCSR is in element 3), none for the header. -/
def xsaveComponent (xfam : Word) (i : Nat) : Option Nat :=
  if i < 20 then some (if i = 3 then 1 else 0)
  else if i < 52 then some 1
  else if i < 72 then none
  else (List.range' 2 17).foldl
    (fun best c =>
      if bit xfam c && decide (Config.xsaveOffsetUnits xfam c ≤ i) &&
          best.all fun b => decide (Config.xsaveOffsetUnits xfam b ≤ Config.xsaveOffsetUnits xfam c)
      then some c else best) none

/-- The INIT value of an element: FCW 0x37F, MXCSR 0x1F80, else 0. -/
def xbuffInit (i : Nat) : Word := if i = 0 then 0x37F else if i = 3 then 0x1F80 else 0

/-- Has a component left its INIT state. -/
def xbuffInUse (xfam : Word) (xbuff : RegFile) (k : Nat) : Bool :=
  xbuff.any (fun e => xsaveComponent xfam e.1 == some k && e.2 != xbuffInit e.1)
    || (k == 0 && regGet xbuff 0 != xbuffInit 0) || (k == 1 && regGet xbuff 3 != xbuffInit 3)

/-- XSTATE_BV as XSAVES writes it: every component in use; of the others, which ones the CPU tracks as in use is free. -/
def xstateBv (p : Tdvps) (tick : Nat) : Word :=
  p.xfam &&& ((List.range 19).foldl (fun w k => w ||| bitAt (xbuffInUse p.xfam p.xbuff k) k)
    (Config.freeWord tick (2 ^ 65)))

/-- The save of the extended state at a TD exit: the header's XSTATE_BV and XCOMP_BV (R205, R591). -/
def Tdvps.saveExt (p : Tdvps) (tick : Nat) : Tdvps :=
  { p with xbuff := regSetAll p.xbuff [(64, xstateBv p tick), (65, 0x8000000000000000 ||| p.xfam)] }

/-- The header that XRSTORS accepts: the compacted format, components inside XFAM, XSTATE_BV inside XCOMP_BV, the rest
of the header 0 (R205). A debugger's write of XFAM leaves XBUFF as the last exit saved it, so that a component taken out
of XFAM makes the next entry fail here; the source does not say what becomes of the area (log entry 57). -/
def Tdvps.xbuffHeaderOk (p : Tdvps) : Bool :=
  let bv := regGet p.xbuff 64
  let comp := regGet p.xbuff 65
  bit comp 63 && (comp &&& ~~~0x8000000000000000 &&& ~~~p.xfam) == 0 && (bv &&& ~~~comp) == 0 && !bit bv 63 &&
    (List.range' 66 6).all fun i => regGet p.xbuff i == 0

/-- The load of the extended state at a TD entry: a component whose XSTATE_BV bit is 0 gets its INIT state (R205). The
components lie where the VCPU's present XFAM puts them, also after a debugger's write of XFAM (log entry 57). -/
def Tdvps.loadExt (p : Tdvps) : Tdvps :=
  let bv := regGet p.xbuff 64
  let kept := p.xbuff.filter fun e => (xsaveComponent p.xfam e.1).all fun k => bit bv k
  let resets := (if bit bv 0 then [] else [(0, xbuffInit 0)]) ++ (if bit bv 1 then [] else [(3, xbuffInit 3)])
  { p with xbuff := regSetAll kept resets }

/-- The GPRs the host sees after an asynchronous TD exit; RBP is unmodified (R700 step 6, D38). -/
def asyncExitGprs (g : Gprs) (cls : ExitClass) (x : VmExit) (extQual : Word) : Gprs :=
  { Gprs.zero with
    rax := statusWord cls.value (exitReasonOut x).toNat, rcx := exitQualOut x, rdx := extQual, r8 := gpaOut x,
    r9 := intrInfoOut x, rbp := g.rbp }

/-- One REFCOUNT less for the parity of the VCPU's epoch (R263). -/
def Tdcs.unref (c : Tdcs) (epoch : Word) : Tdcs :=
  if bit epoch 0 then { c with refcount1 := c.refcount1 - 1 } else { c with refcount0 := c.refcount0 - 1 }

/-- The locks TDH.VP.ENTER took and holds until the TD exit (R512, footnote 13). -/
def releaseEntryLocks (l : Locks) (v tdr : Nat) : Locks :=
  release (release (release (release l (.pamt4k tdr)) (.pamt4k v)) (.pamt2m (pageBase v 1))) (.pamt1g (pageBase v 2))

/-- The class of an asynchronous TD exit, which the host's local APIC mode may override (R701, D86). -/
def exitClass (s : State) (cls : ExitClass) : ExitClass := if s.lp.apicModeOk then cls else .wrongApicMode

/-- The VCPU after an asynchronous TD exit (R700 steps 1, 3 and 4). -/
def Tdvps.afterAsyncExit (v : Tdvps) (cls : ExitClass) (tsc : Word) : Tdvps :=
  { v with lastExitTsc := tsc, vcpuState := if cls = .nonRecoverableVcpu then .disabled else .readyAsync }

/-- The TDCS after a TD exit (R700 steps 2 and 4). -/
def Tdcs.afterAsyncExit (c : Tdcs) (cls : ExitClass) (epoch : Word) : Tdcs :=
  let c := c.unref epoch
  if cls = .nonRecoverableVcpu then { c with numVcpus := c.numVcpus - 1 } else c

/-- The four entry locks are held; a release of a free one is a fatal error of the module (R750 (c)). -/
def entryLocksHeld (l : Locks) (v tdr : Nat) : Bool :=
  [LockId.pamt4k tdr, .pamt4k v, .pamt2m (pageBase v 1), .pamt1g (pageBase v 2)].all fun id => (lockState l id).isSome

/-- An asynchronous TD exit, which ends with SEAMRET (R700). -/
def asyncTdExit (s : State) (v : Nat) (x : VmExit) (cls0 : ExitClass) (extQual : Word) : State :=
  let cls := exitClass s cls0
  let tdr := s.ownerOf v
  match tblGet s.vps v, tblGet s.tdcss tdr with
  | some vp, some c =>
    if entryLocksHeld s.locks v tdr then
      let s := s.modVp v fun p => ((recordExit p x).afterAsyncExit cls s.tsc).saveExt s.tick
      let s := s.modTdcs tdr fun c => c.afterAsyncExit cls vp.vcpuEpoch
      let s := s.modTdr tdr fun t => if cls.tdScope then { t with fatal := true } else t
      { s with locks := releaseEntryLocks s.locks v tdr }.modLp fun l =>
        { l.afterExit c vp.xfam with
          gprs := asyncExitGprs l.gprs cls x extQual, rip := l.rip + w64 s.plat.seamcallLength }
    else fatalShutdown s
  | _, _ => fatalShutdown s

/-! ## Machine checks on several logical processors (R743, R751) -/

/-- The record of a machine check in the guest: VM exit 0 with vector 18, a hardware exception (R740). -/
def machineCheckExit : VmExit := { VmExit.plain 0 with intrInfo := 0x80000312 }

/-- The module can read the structures that a VM exit of the VCPU uses: the TDR, the TDCS, the TDVPS and the PAMT
entries of their first pages (R271, R751). That a VM exit reads all of these is a DESIGN CHOICE (log entry 84). -/
def structuresReadable (s : State) (v : Nat) : Bool :=
  match tblGet s.vps v, tblGet s.tdrs (s.ownerOf v) with
  | some p, some t =>
    pageReadable s s.globalHkid (s.ownerOf v) && (t.tdcxPa.all fun a => pageReadable s t.hkid a) &&
      (p.pagePa.all fun a => pageReadable s t.hkid a) && pamtReadable s v && pamtReadable s (s.ownerOf v)
  | _, _ => true

/-- The logical processor executes nothing further, and TDX is disabled (R751). -/
def stopLp (s : State) (i : Nat) : State :=
  { s with seamDisabled := true }.modLpAt i fun l => { l with shutdown := true }

/-- The VCPU is in the middle of a TDG.MEM.PAGE.ACCEPT: its logical processor executes the module (R276). -/
def inAccept (s : State) (v : Nat) : Bool := (tblGet s.vps v).any fun p => p.accept.isSome

/-- A broadcast machine check on every listed logical processor: a guest's TD becomes FATAL (R740, R741), a logical
processor that executes the module, in a TDG.MEM.PAGE.ACCEPT or a TDH.MEM.WR, is stopped (R743, R751). -/
def broadcastExit (x : VmExit) : State → List Nat → State
  | s, [] => s
  | s, i :: is =>
    match (s.lpAt i).shutdown, (s.lpAt i).curVcpu with
    | false, some v =>
      if s.seamDisabled || inAccept s v || !structuresReadable s v then broadcastExit x (stopLp s i) is
      else broadcastExit x (asyncTdExit { s with curLp := i } v x .nonRecoverableTdFatal 0) is
    | false, none => broadcastExit x (if (s.lpAt i).memWr.isSome then stopLp s i else s) is
    | true, _ => broadcastExit x s is

/-- The logical processors other than the current one. -/
def State.otherLps (s : State) : List Nat := (List.range s.lps.length).filter fun i => i != s.curLp

/-- The record without bit 26: the bus lock that a VM exit pre-empts is the executing logical processor's (R623). -/
def VmExit.unlocked (x : VmExit) : VmExit := { x with reason := x.reason &&& 0xFFFF }

/-- The same machine check reaches the other logical processors, unless LMCE confines it (R743); none of them has the
bus lock that it may have pre-empted on this one. -/
def broadcastOthers (s : State) (x : VmExit) : State :=
  if s.plat.lmce then s else { broadcastExit x.unlocked s s.otherLps with curLp := s.curLp }

/-- Unbreakable shutdown: TDX is disabled and the logical processor executes nothing further (R751). -/
def unbreakableShutdown (s : State) : State := stopLp (broadcastOthers s machineCheckExit) s.curLp

/-! ## Handling a VM exit (R642, R701) -/

/-- A VM exit that comes after TDX has been disabled cannot be served: the VCPU and its logical processor stop
(R750, D92). A VM exit whose structures are poisoned is an unbreakable shutdown (R271, R751). -/
def serveExit (s : State) (v : Nat) (handled : State) : State :=
  if s.seamDisabled then s.modLp fun l => { l with shutdown := true }
  else if structuresReadable s v then handled
  else unbreakableShutdown s

/-- Every VM entry sets "NMI-window exiting" from PEND_NMI (R725). After one that injects an event, and only such a one, a
monitor-trap-flag VM exit is pending at once (R642, log entry 82). -/
def Tdvps.entering (v : Tdvps) : Tdvps :=
  { v with mtfPending := bit (v.vm Vmcs.procbased) 27 && bit (v.vm Vmcs.entryIntrInfo) 31 }.setVm Vmcs.procbased
    (mergeMask (v.vm Vmcs.procbased) (bitAt v.pendNmi 22) 0x400000)

/-- Does the off-TD debugger intercept the exception (R642 step 1.2.1). -/
def intercepted (s : State) (v : Nat) (vector : Nat) : Bool :=
  match tblGet s.vps v, tblGet s.tdcss (s.ownerOf v) with
  | some p, some c => c.debug && bit (p.vm Vmcs.exceptionBitmap) vector
  | _, _ => false

/-- The interruption information of a hardware exception (R702). -/
def exceptionInfo (vector : Nat) (error : Option Word) : Word :=
  w64 (0x80000300 + vector + if error.isSome then 0x800 else 0)

/-- The record of a TD exit taken instead of injecting an exception: reason 0 (R642 step 1.2.1.1). -/
def exceptionExit (vector : Nat) (error : Option Word) : VmExit :=
  { VmExit.plain 0 with intrInfo := exceptionInfo vector error, intrError := error.getD 0 }

/-- After the VM exit `x` the module injects an exception and resumes the guest, or takes a TD exit when the debugger
intercepts that exception (R642, R711). That the VM-exit information fields then hold the composed record of the exception
and no longer that of `x` is a DESIGN CHOICE (log entry 89). -/
def guestFault (s : State) (v : Nat) (x : VmExit) (vector : Nat) (error : Option Word) : State :=
  serveExit s v
    (if intercepted s v vector then asyncTdExit s v (exceptionExit vector error) .success 0
     else s.modVp v fun p => (injectException (recordExit p x) vector error).entering)

/-- The module injects #VE, or #DF on a #VE overrun (R710); where the debugger intercepts it, the VM-exit information fields
hold what `guestFault` leaves in them (log entry 89). -/
def guestVe (s : State) (v : Nat) (x : VmExit) : State :=
  match tblGet s.vps v with
  | none => s
  | some p =>
    if p.veInfo.valid ≠ 0 then guestFault s v x 8 (some 0)
    else if intercepted s v 20 then guestFault s v x 20 none
    else serveExit s v (s.modVp v fun p => (injectVe (recordExit p x) x).entering)

/-- A TD exit after a VM exit (R700). -/
def guestExit (s : State) (v : Nat) (x : VmExit) (cls : ExitClass) (extQual : Word) : State :=
  serveExit s v (asyncTdExit s v x cls extQual)

/-- A VM exit that the module does not expect: a TD exit for a debuggable TD, else a fatal error (R642 step 2). -/
def unexpectedExit (s : State) (v : Nat) (x : VmExit) : State :=
  serveExit s v
    (match tblGet s.tdcss (s.ownerOf v) with
     | some c => if c.debug then asyncTdExit s v x .success 0 else fatalShutdown s
     | none => fatalShutdown s)

/-- The record of a VM entry that fails: bit 31 of the reason is set (R642). -/
def entryFailureExit (basic : Nat) (qualification : Word) : VmExit :=
  { VmExit.plain (w64 (0x80000000 + basic)) with qualification := qualification }

/-- The basic reason with which the CPU refuses the VM entry, if it does: only a debugger can have made the guest state bad
(R642; the order of the reasons is the model's, log entry 40). -/
def entryRefusal (c : Tdcs) (p : Tdvps) : Option Nat :=
  if c.debug then [33, 34, 41].find? fun n => Config.entryRefused n p.vmcs else none

/-- Does the exception bitmap make a VM exit of an exception; for #PF the error-code mask and match take part (VMX;
only a debugger can change these fields, R184). -/
def Tdvps.excExits (v : Tdvps) (vector : Nat) (error : Option Word) : Bool :=
  if vector = 14 then
    bit (v.vm Vmcs.exceptionBitmap) 14 == ((error.getD 0 &&& v.vm 0x4006) == v.vm 0x4008)
  else decide (vector < 32) && bit (v.vm Vmcs.exceptionBitmap) vector

/-- What the delivery of an exception loads: CR2 for #PF; for #DB its causes in DR6, where bit 11 is cleared to report a
bus lock (R621), and DR7.GD is cleared. `q` is the exit qualification that the exception would have. -/
def Tdvps.loadFault (v : Tdvps) (vector : Nat) (q : Word) : Tdvps :=
  if vector = 14 then { v with cr2 := q }
  else if vector = 1 then
    { v.setVm Vmcs.dr7 (v.vm Vmcs.dr7 &&& ~~~0x2000) with
      dr6 := ((v.dr6 &&& ~~~0xF) ||| (q &&& 0x600F)) &&& ~~~(q &&& 0x800) }
  else v

/-- An exception raised by the CPU in the guest, with its exit qualification: delivered through the guest's IDT without
a VM exit (R708), unless a debugger intercepts it (R642). RIP stays where it is. -/
def cpuException (s : State) (v : Nat) (p : Tdvps) (vector : Nat) (error : Option Word) (q : Word) : State :=
  if p.excExits vector error then unexpectedExit s v { exceptionExit vector error with qualification := q }
  else s.modVp v fun p => (p.loadFault vector q).deliver vector error

/-- The pending debug exceptions that a VM entry delivers: with a bus lock (bit 11), an enabled breakpoint (bit 12) or a
single step (bit 14) among them (R621; log entry 73). -/
def Tdvps.hasPendingDebug (v : Tdvps) : Bool := (v.vm Vmcs.pendingDebug &&& 0x5800) != 0

/-- The VM entry delivers the pending debug exceptions as a #DB (R621). -/
def deliverPendingDebug (s : State) (v : Nat) : State :=
  match tblGet s.vps v with
  | none => s
  | some p =>
    if p.hasPendingDebug then
      cpuException (s.modVp v fun p => p.setVm Vmcs.pendingDebug 0) v p 1 none (p.vm Vmcs.pendingDebug &&& 0x480F)
    else s

/-- The exit of a task switch, with the event whose delivery it was incidental to, if any (R636). -/
def taskSwitchExit (qualification idtVectoring idtError : Word) : VmExit :=
  { VmExit.plain 9 with qualification := qualification, idtVectoring := idtVectoring, idtError := idtError }

/-- The last VM exit was a task switch incidental to the delivery of an event: the next VM entry attempts the delivery
again (R636). -/
def Tdvps.reattempts (v : Tdvps) : Bool :=
  bitsOf (v.vm Vmcs.exitReason) 15 0 == 9 && bit (v.vm Vmcs.idtVectoring) 31

/-- The VM entry names the event again. Outside IA-32e mode its delivery causes the same task-switch VM exit; in IA-32e
mode, where a debugger may have put the guest, there is no task switch and the guest takes the event (R636). -/
def reattemptDelivery (s : State) (v : Nat) (p : Tdvps) : State :=
  let info := p.vm Vmcs.idtVectoring
  let error := p.vm Vmcs.idtError
  let s1 := s.modVp v fun p => p.setVms [(Vmcs.entryIntrInfo, info), (Vmcs.entryErrorCode, error)]
  if bit (p.vm Vmcs.efer) 10 then
    s1.modVp v fun p => p.deliver (bitsOf info 7 0) (if bit info 11 then some error else none)
  else guestExit s1 v (taskSwitchExit (p.vm Vmcs.exitQualification) info error) .success 0

/-- What the VM entry of TDH.VP.ENTER delivers: an event whose delivery a task switch broke off, else the pending debug
exceptions (R621, R636). -/
def entryEvents (s : State) (v : Nat) : State :=
  match tblGet s.vps v with
  | none => s
  | some p => if p.reattempts then reattemptDelivery s v p else deliverPendingDebug s v

/-- The step's outcome. -/
abbrev Outcome := Host.Outcome State Fault Refusal

/-! ## The common entry of SEAMCALL (R321, R752) -/

/-- What becomes of a host-side function's answer. -/
def finishHost (s : State) (r : Fn State) : State :=
  match r with
  | .ok s' => s'
  | .error (.status v d outs) => hostReturn s v d outs
  | .error .unbreakable => unbreakableShutdown s
  | .error .fatal => fatalShutdown s

/-- What stops a step of a logical processor before it begins: there is no such logical processor, so no agent that
could take the step (R11), or it is in an unbreakable shutdown (R751). -/
def lpStop (s : State) : Option Outcome :=
  if s.lps.length ≤ s.curLp then some (.refused .illFormedLabel)
  else if s.lp.shutdown then some (.fault .lpShutdown)
  else none

/-- SEAMCALL of a supported leaf in root mode: the refusals of R752, the state checks of R321, then the leaf's own
function. `sysLeaf` is step 2 of R321. -/
def rootCall (sysLeaf : Bool) (body : State → Fn State) (s : State) : State :=
  if s.seamDisabled then vmfailInvalid s
  else if s.lp.seamcallBlocked then blockedReturn s
  else if sysLeaf then finishHost s (body s)
  else if s.sysState = .sysShutdown then hostReturn s Status.sysShutdown 0 []
  else if s.sysState ≠ .sysReady then hostReturn s Status.sysNotReady 0 []
  else finishHost s (body s)

/-- SEAMCALL of a supported leaf. In TDX non-root mode SEAMCALL is a VM exit (76) answered with #UD (R577, R701). -/
def hostCall (sysLeaf : Bool) (body : State → Fn State) (s : State) : Outcome :=
  match lpStop s, s.lp.curVcpu with
  | some o, _ => o
  | none, some v => .next (guestFault s v (VmExit.plain 76) 6 none)
  | none, none => .next (rootCall sysLeaf body s)

/-- SEAMCALL of an unsupported leaf (R321 step 1, D71). -/
def unsupportedSeamcall (s : State) : Outcome :=
  hostCall true (fun _ => .error (bad Status.operandInvalid Operand.rax)) s

/-! ## Reaching the control structures (R327, R271) -/

/-- The TDR at an address, read with the global private HKID. That every line of its page counts as read is a DESIGN CHOICE
(log entry 84). -/
def getTdr (s : State) (a : Nat) : Fn Tdr := do
  req (pageReadable s s.globalHkid a) .unbreakable
  getOr (tblGet s.tdrs a) .fatal

/-- The TDCS of a TD, read with the TD's HKID. That every line of all its TDCX pages counts as read, here and so before the
later checks of the function, is a DESIGN CHOICE (log entry 84). -/
def getTdcs (s : State) (a : Nat) (t : Tdr) : Fn Tdcs := do
  req (t.tdcxPa.all fun p => pageReadable s t.hkid p) .unbreakable
  getOr (tblGet s.tdcss a) .fatal

/-- The TDVPS of a VCPU, read with the TD's HKID. That every line of all its pages counts as read is a DESIGN CHOICE (log
entry 84). -/
def getVp (s : State) (a hkid : Nat) : Fn Tdvps := do
  let v ← getOr (tblGet s.vps a) .fatal
  req (v.pagePa.all fun p => pageReadable s hkid p) .unbreakable
  pure v

/-- An operand that must be a free page: CheckHpa, its locks (exclusive on the page), CheckPamt with PT_NDA. That the 512
entries below a 2MB page are read after its locks have been taken is the model's choice (log entry 77). -/
def takeFreePage (s : State) (l : Locks) (id : Nat) (pa : Word) (level : Nat) : Fn (Locks × Nat) := do
  let a ← checkHpa s id pa (pageBytes level)
  let l ← lockPage l a level .exclusive .shared id
  req (level == 0 || pamtRangeReadable s a) .unbreakable
  req (pageFree s a level) (bad Status.pageMetadataIncorrect id)
  pure (l, a)

/-- Extended outputs written on every return of a function that fails without saying otherwise (R322, D31). -/
def withOuts (outs : List (Reg × Word)) (r : Fn State) : Fn State :=
  match r with
  | .error (.status v d o) => .error (.status v d (outs ++ o))
  | r => r

/-- Lines 2 to 4 of CheckTD (R327). -/
def checkTdState (t : Tdr) : Fn Unit := do
  req (!t.fatal) (bad Status.tdFatal 0)
  req (t.lifecycle == .keysConfigured) (bad Status.tdKeysNotConfigured 0)
  req t.init (bad Status.tdNotInitialized 0)

/-- CheckTD for a TDR named by a register: its page type, then its state (R327). -/
def checkTd (s : State) (a id : Nat) : Fn Tdr := do
  req (pageIs s a 0 .tdr) (bad Status.pageMetadataIncorrect id)
  let t ← getTdr s a
  checkTdState t
  pure t

/-- CheckHpa, the locks of the TDR page and CheckTD: what every TD-scope function opens with. -/
def openTd (s : State) (id : Nat) (pa : Word) (m : LockMode) : Fn (Locks × Nat × Tdr × Tdcs) := do
  let td ← checkHpa s id pa 4096
  let l ← lockPage4k s.locks td m .shared id
  let t ← checkTd s td id
  let c ← getTdcs s td t
  pure (l, td, t, c)

/-- The TD of a TDVPR page: its TDR's page is locked (busy: TDR, 128), its type checked (R327) and it is read.
That poison in its PAMT entries shows before its busy lock is a DESIGN CHOICE (log entry 83). -/
def lockOwner (s : State) (l : Locks) (v : Nat) (m : LockMode) : Fn (Locks × Nat × Tdr) := do
  let a := s.ownerOf v
  req (pamtReadable s a) .unbreakable
  let l ← lockOp l (.pamt4k a) m Operand.tdr
  req (pageIs s a 0 .tdr) (bad Status.pageMetadataIncorrect Operand.tdr)
  let t ← getTdr s a
  pure (l, a, t)

end Sys2Proof.Machine
end

