-- ==== Sys2Proof/Machine/Sept.lean ====
section
/-! DEFINITION. The Secure EPT: levels and indices, the walk, the words returned for an entry, TLB tracking
(21_secure_ept.md rules R255 to R264, 31_data_types.md rules R381 and R382). -/

namespace Sys2Proof.Machine

/-! ## Guest physical addresses (R264) -/

/-- GpaWidth(td). -/
def Tdcs.gpaWidth (c : Tdcs) : Nat := if c.gpaw then 52 else 48

/-- SharedBit(td). -/
def Tdcs.sharedBit (c : Tdcs) : Nat := c.gpaWidth - 1

/-- LegalGpa(td, g). -/
def Tdcs.legalGpa (c : Tdcs) (g : Nat) : Bool := decide (g < 2 ^ c.gpaWidth)

/-- PrivateGpa(td, g). -/
def Tdcs.privateGpa (c : Tdcs) (g : Nat) : Bool := decide (g < 2 ^ c.sharedBit)

/-! ## Entries and the walk (R255, R260, R261) -/

/-- A free entry (R260). -/
def SeptEntry.free : SeptEntry := ⟨.free, false, 0⟩

/-- The Secure EPT entry at an address; an entry not listed is SEPT_FREE (its 8 bytes are 0, R260 (a)). -/
def septAt (s : State) (a : Nat) : SeptEntry := (tblGet s.sept a).getD SeptEntry.free

/-- Write a Secure EPT entry. -/
def State.setSept (s : State) (a : Nat) (e : SeptEntry) : State :=
  { s with sept := if e.state = .free then tblDel s.sept a else tblSet s.sept a e }

/-- The 512 entries of a page SEPT_FREE. -/
def State.clearSeptPage (s : State) (page : Nat) : State :=
  { s with sept := s.sept.filter fun e => decide (e.1 < page) || decide (page + 4096 ≤ e.1) }

/-- The 512 entries of a page set, entry `i` to `f i` (none of them free). -/
def State.fillSeptPage (s : State) (page : Nat) (f : Nat → SeptEntry) : State :=
  { s with sept := s.sept.filter (fun e => decide (e.1 < page)) ++ (List.range 512).map (fun i => (page + 8 * i, f i))
      ++ s.sept.filter (fun e => decide (page + 4096 ≤ e.1)) }

/-- All 512 entries of a page are SEPT_FREE. -/
def septPageFree (s : State) (page : Nat) : Bool :=
  s.sept.all fun e => decide (e.1 < page) || decide (page + 4096 ≤ e.1)

/-- A blocked state (R260). -/
def SeptState.isBlocked (x : SeptState) : Bool := x == .blocked || x == .pendingBlocked

/-- The state RANGE.BLOCK gives (R426). -/
def SeptState.block : SeptState → SeptState
  | .present => .blocked
  | _ => .pendingBlocked

/-- The state unblocking gives: SEPT_PRESENT from SEPT_BLOCKED, else SEPT_PENDING (R422, R424, R427). -/
def SeptState.unblock : SeptState → SeptState
  | .blocked => .present
  | _ => .pending

/-- The root page: EPTP bits 51:12 (R134, R182). -/
def Tdcs.rootPage (c : Tdcs) : Nat := bitsOf c.eptp 51 12 * 4096

/-- RootLevel(td): EPTP bits 5:3 (R255). -/
def Tdcs.rootLevel (c : Tdcs) : Nat := bitsOf c.eptp 5 3

/-- Index(gpa, L) (R255). -/
def septIndex (gpa level : Nat) : Nat :=
  if level = 4 then gpa / 2 ^ 48 % 16 else gpa / 2 ^ (12 + 9 * level) % 512

/-- A located entry: its address, its level and its content. -/
structure SeptPos where
  addr : Nat
  level : Nat
  entry : SeptEntry
  deriving DecidableEq, Repr

/-- The PAMT level of what an entry maps: the page of the entry's level for a leaf, else a 4KB Secure EPT page. -/
def SeptPos.mapsLevel (p : SeptPos) : Nat := if p.entry.leaf then p.level else 0

/-- How a walk ends (R261). -/
inductive Walk where
  | ok (p : SeptPos)
  | stop (p : SeptPos)
  | poison
  deriving DecidableEq, Repr

/-- The walk from a page of entries of a level. `target = none` is the word "leaf". -/
def walkFrom (s : State) (hkid gpa : Nat) (target : Option Nat) (page : Nat) : Nat → Walk
  | 0 =>
    let a := page + 8 * septIndex gpa 0
    let p : SeptPos := ⟨a, 0, septAt s a⟩
    if linePoison s hkid (a / 64) then .poison
    else if target = none ∨ target = some 0 then .ok p
    else .stop p
  | l + 1 =>
    let a := page + 8 * septIndex gpa (l + 1)
    let e := septAt s a
    let p : SeptPos := ⟨a, l + 1, e⟩
    if linePoison s hkid (a / 64) then .poison
    else if target = some (l + 1) then .ok p
    else if target = none ∧ e.state ≠ .free ∧ e.leaf = true then .ok p
    else if e.state ≠ .present ∨ e.leaf = true then .stop p
    else walkFrom s hkid gpa target e.hpa l

/-- SeptWalk(td, gpa, target) (R261). -/
def septWalk (s : State) (c : Tdcs) (hkid gpa : Nat) (target : Option Nat) : Walk :=
  walkFrom s hkid gpa target c.rootPage c.rootLevel

/-! ## Returned words (R260 (f), R381, R382) -/

/-- The code of a state (Table 20.14). -/
def SeptState.code : SeptState → Nat
  | .free => 0 | .blocked => 1 | .pending => 2 | .pendingBlocked => 3 | .present => 4

/-- The Suppress-#VE bit of an entry (R260 (f)). -/
def suppressVe (c : Tdcs) (e : SeptEntry) : Bool := !(e.state == .pending && !c.septVeDisable)

/-- SeptEntryOut(e) (R381). -/
def septEntryOut (c : Tdcs) (e : SeptEntry) : Word :=
  if e.state = .free then 0x8000000000000000
  else
    let rwx : Word := if e.state = .present then 7 else 0
    if e.leaf then rwx ||| 0xF0 ||| w64 e.hpa ||| bitAt (suppressVe c e) 63
    else rwx ||| w64 e.hpa

/-- SeptInfoOut(level, e) (R382). -/
def septInfoOut (level : Nat) (e : SeptEntry) : Word := w64 (level + 256 * e.state.code)

/-- The two words in RCX and RDX. -/
def septOuts (c : Tdcs) (p : SeptPos) : List (Reg × Word) :=
  [(.rcx, septEntryOut c p.entry), (.rdx, septInfoOut p.level p.entry)]

/-- A host-side walk that must succeed: a failure is TDX_EPT_WALK_FAILED with the last entry visited (R261). -/
def walkOr (s : State) (c : Tdcs) (hkid gpa : Nat) (target : Option Nat) : Fn SeptPos :=
  match septWalk s c hkid gpa target with
  | .ok p => .ok p
  | .stop p => .error (.status Status.eptWalkFailed Operand.rcx (septOuts c p))
  | .poison => .error .unbreakable

/-- How a test of a Secure EPT entry fails (0xB01 to 0xB09): the details are an operand id, as Table 19.2 defines these
statuses (R323), here that of the mapping word that names the entry (log entry 76). -/
def eptBad (value : Nat) : HostAbort := bad value Operand.rcx

/-! ## TLB tracking (R262) -/

/-- REFCOUNT of a parity. -/
def Tdcs.refcount (c : Tdcs) (epoch : Nat) : Nat := if epoch % 2 = 1 then c.refcount1 else c.refcount0

/-- TlbTrackingDone(td, b) (R262, D58). -/
def tlbTrackingDone (c : Tdcs) (b : Word) : Bool :=
  decide (b.toNat + 2 ≤ c.tdEpoch.toNat) || (c.tdEpoch.toNat == b.toNat + 1 && c.refcount b.toNat == 0)

end Sys2Proof.Machine
end

