-- ==== Sys2Proof/Machine/Operands.lean ====
section
/-! DEFINITION. Operand words: the EPT mapping information word (31_data_types.md rule R380), the extended exit
qualification (R383), metadata field identifiers (R395). -/

namespace Sys2Proof.Machine

/-- The TD-independent tests of MapInfo: reserved bits, the level against the function's range, alignment (R380,
D76). It answers the level and the GPA. -/
def mapInfo (id lmin lmax : Nat) (w : Word) : Fn (Nat × Nat) := do
  req (bitsOf w 11 3 == 0 && bitsOf w 63 52 == 0) (bad Status.operandInvalid id)
  req (decide (lmin ≤ bitsOf w 2 0) && decide (bitsOf w 2 0 ≤ lmax)) (bad Status.operandInvalid id)
  req (isAligned (bitsOf w 51 12 * 4096) (pageBytes (bitsOf w 2 0))) (bad Status.operandInvalid id)
  pure (bitsOf w 2 0, bitsOf w 51 12 * 4096)

/-- The TD-dependent tests of MapInfo: the level against RootLevel(td), PrivateGpa (R380, D76). -/
def mapInfoTd (c : Tdcs) (id level gpa : Nat) : Fn Unit :=
  req (decide (level ≤ c.rootLevel) && c.privateGpa gpa) (bad Status.operandInvalid id)

/-- The opening of a function with a mapping word in RCX and a TDR in RDX: MapInfo, the TD checks, the TD-dependent
part of MapInfo (the template of 40_seamcall_mem.md, D76). -/
def openMap (s : State) (m : LockMode) (lmin lmax : Nat) : Fn (Locks × Nat × Tdr × Tdcs × Nat × Nat) := do
  let (level, gpa) ← mapInfo Operand.rcx lmin lmax (s.hreg .rcx)
  let (l, td, t, c) ← openTd s Operand.rdx (s.hreg .rdx) m
  mapInfoTd c Operand.rcx level gpa
  pure (l, td, t, c, level, gpa)

/-- Lock the Secure EPT tree and walk it (R261). -/
def lockWalk (s : State) (l : Locks) (td : Nat) (t : Tdr) (c : Tdcs) (gpa : Nat) (target : Option Nat)
    (m : LockMode) : Fn (Locks × SeptPos) := do
  let l ← lockOp l (.sept td) m Operand.sept
  let p ← walkOr s c t.hkid gpa target
  pure (l, p)

/-- ExtQualAccept(req, errLevel, errState, isLeaf) (R383). -/
def extQualAccept (reqLevel errLevel : Nat) (e : SeptEntry) : Word :=
  w64 (1 + reqLevel * 2 ^ 32 + errLevel * 2 ^ 35 + e.state.code * 2 ^ 38 + (if e.leaf then 2 ^ 46 else 0))

/-- CLASS_CODE of a metadata field identifier (R395). -/
def fieldClass (id : Word) : Nat := bitsOf id 62 56

/-- FIELD_CODE of a metadata field identifier (R395). -/
def fieldCode (id : Word) : Nat := bitsOf id 31 0

/-- NON_ARCH of a metadata field identifier (R395). -/
def fieldNonArch (id : Word) : Bool := bit id 63

/-- The reserved bits of an identifier are 0 (R395). -/
def fieldReservedOk (id : Word) : Bool := bitsOf id 55 32 == 0

/-- The packed form of an MSR index (R163, R395). -/
def packMsr (index : Nat) : Nat := index % 0x2000 + (if index / 2 ^ 31 % 2 = 1 then 0x2000 else 0)

/-- The MSR index of a packed form (R163). -/
def unpackMsr (code : Nat) : Nat := if code < 0x2000 then code else 0xC0000000 + (code - 0x2000)

end Sys2Proof.Machine
end

