-- ==== Sys2Proof/Machine/Sha384.lean ====
section
/-! DEFINITION. SHA-384, with the running form that MRTD_CONTEXT holds (11_state_td.md rule R132, 41_seamcall_mng_mr.md
rules R460 and R461, 31_data_types.md rule R376). The algorithm is the published one, which the source only names (log
entry 20). -/

namespace Sys2Proof.Machine

/-- Round constants, part 1. -/
def shaK1 : List Word :=
  [0x428A2F98D728AE22, 0x7137449123EF65CD, 0xB5C0FBCFEC4D3B2F, 0xE9B5DBA58189DBBC,
   0x3956C25BF348B538, 0x59F111F1B605D019, 0x923F82A4AF194F9B, 0xAB1C5ED5DA6D8118,
   0xD807AA98A3030242, 0x12835B0145706FBE, 0x243185BE4EE4B28C, 0x550C7DC3D5FFB4E2,
   0x72BE5D74F27B896F, 0x80DEB1FE3B1696B1, 0x9BDC06A725C71235, 0xC19BF174CF692694,
   0xE49B69C19EF14AD2, 0xEFBE4786384F25E3, 0x0FC19DC68B8CD5B5, 0x240CA1CC77AC9C65]

/-- Round constants, part 2. -/
def shaK2 : List Word :=
  [0x2DE92C6F592B0275, 0x4A7484AA6EA6E483, 0x5CB0A9DCBD41FBD4, 0x76F988DA831153B5,
   0x983E5152EE66DFAB, 0xA831C66D2DB43210, 0xB00327C898FB213F, 0xBF597FC7BEEF0EE4,
   0xC6E00BF33DA88FC2, 0xD5A79147930AA725, 0x06CA6351E003826F, 0x142929670A0E6E70,
   0x27B70A8546D22FFC, 0x2E1B21385C26C926, 0x4D2C6DFC5AC42AED, 0x53380D139D95B3DF,
   0x650A73548BAF63DE, 0x766A0ABB3C77B2A8, 0x81C2C92E47EDAEE6, 0x92722C851482353B]

/-- Round constants, part 3. -/
def shaK3 : List Word :=
  [0xA2BFE8A14CF10364, 0xA81A664BBC423001, 0xC24B8B70D0F89791, 0xC76C51A30654BE30,
   0xD192E819D6EF5218, 0xD69906245565A910, 0xF40E35855771202A, 0x106AA07032BBD1B8,
   0x19A4C116B8D2D0C8, 0x1E376C085141AB53, 0x2748774CDF8EEB99, 0x34B0BCB5E19B48A8,
   0x391C0CB3C5C95A63, 0x4ED8AA4AE3418ACB, 0x5B9CCA4F7763E373, 0x682E6FF3D6B2B8A3,
   0x748F82EE5DEFB2FC, 0x78A5636F43172F60, 0x84C87814A1F0AB72, 0x8CC702081A6439EC]

/-- Round constants, part 4. -/
def shaK4 : List Word :=
  [0x90BEFFFA23631E28, 0xA4506CEBDE82BDE9, 0xBEF9A3F7B2C67915, 0xC67178F2E372532B,
   0xCA273ECEEA26619C, 0xD186B8C721C0C207, 0xEADA7DD6CDE0EB1E, 0xF57D4F7FEE6ED178,
   0x06F067AA72176FBA, 0x0A637DC5A2C898A6, 0x113F9804BEF90DAE, 0x1B710B35131C471B,
   0x28DB77F523047D84, 0x32CAAB7B40C72493, 0x3C9EBE0A15C9BEBC, 0x431D67C49C100D4C,
   0x4CC5D4BECB3E42B6, 0x597F299CFC657E2A, 0x5FCB6FAB3AD6FAEC, 0x6C44198C4A475817]

/-- The 80 round constants. -/
def shaK : List Word := shaK1 ++ shaK2 ++ shaK3 ++ shaK4

/-- SHA384_Init: the initial chaining value, nothing hashed. -/
def ShaCtx.init : ShaCtx :=
  ⟨[0xCBBB9D5DC1059ED8, 0x629A292A367CD507, 0x9159015A3070DD17, 0x152FECD8F70E5939,
   0x67332667FFC00B31, 0x8EB44A8768581511, 0xDB0C2E0D64F98FA7, 0x47B5481DBEFA4FA4], 0⟩

/-- Rotate right. -/
def rotr (x : Word) (n : Nat) : Word := (x >>> n) ||| (x <<< (64 - n))

/-- Extend the message schedule: `w` holds the words so far, the latest first. -/
def shaSchedule : Nat → List Word → List Word
  | 0, w => w
  | n + 1, w =>
    let w2 := w.getD 1 0
    let w15 := w.getD 14 0
    let s0 := rotr w15 1 ^^^ rotr w15 8 ^^^ (w15 >>> 7)
    let s1 := rotr w2 19 ^^^ rotr w2 61 ^^^ (w2 >>> 6)
    shaSchedule n ((w.getD 15 0 + s0 + w.getD 6 0 + s1) :: w)

/-- The eight working variables. -/
structure ShaVars where
  a : Word
  b : Word
  c : Word
  d : Word
  e : Word
  f : Word
  g : Word
  h : Word
  deriving DecidableEq, Repr

/-- One round. -/
def ShaVars.round (v : ShaVars) (k w : Word) : ShaVars :=
  let t1 := v.h + (rotr v.e 14 ^^^ rotr v.e 18 ^^^ rotr v.e 41) + ((v.e &&& v.f) ^^^ (~~~v.e &&& v.g)) + k + w
  let t2 := (rotr v.a 28 ^^^ rotr v.a 34 ^^^ rotr v.a 39) + ((v.a &&& v.b) ^^^ (v.a &&& v.c) ^^^ (v.b &&& v.c))
  ⟨t1 + t2, v.a, v.b, v.c, v.d + t1, v.e, v.f, v.g⟩

/-- All rounds. -/
def ShaVars.rounds (v : ShaVars) : List (Word × Word) → ShaVars
  | [] => v
  | (k, w) :: rest => (v.round k w).rounds rest

/-- The big-endian value of a list of bytes. -/
def beValue : List Byte → Nat
  | bs => leValue bs.reverse

/-- The `n` 64-bit big-endian words of a block. -/
def shaWords : Nat → List Byte → List Word
  | 0, _ => []
  | n + 1, bs => w64 (beValue (bytesAt bs 0 8)) :: shaWords n (bs.drop 8)

/-- The compression function on one 128-byte block. -/
def shaBlock (h : List Word) (block : List Byte) : List Word :=
  let w := (shaSchedule 64 (shaWords 16 block).reverse).reverse
  let v : ShaVars := ⟨h.getD 0 0, h.getD 1 0, h.getD 2 0, h.getD 3 0, h.getD 4 0, h.getD 5 0, h.getD 6 0, h.getD 7 0⟩
  let r := v.rounds (shaK.zip w)
  [v.a + r.a, v.b + r.b, v.c + r.c, v.d + r.d, v.e + r.e, v.f + r.f, v.g + r.g, v.h + r.h]

/-- SHA384_Update with one 128-byte block. -/
def ShaCtx.update (c : ShaCtx) (block : List Byte) : ShaCtx := ⟨shaBlock c.h (padTo 128 block), c.len + 128⟩

/-- The chaining value as bytes, most significant first. -/
def shaDigest (h : List Word) : List Byte := (h.take 6).flatMap fun w => (leBytes 8 w.toNat).reverse

/-- SHA384_Final of a context of whole blocks: the padding block, then the 48-byte digest. -/
def ShaCtx.final (c : ShaCtx) : List Byte :=
  shaDigest (shaBlock c.h (padTo 112 [0x80] ++ (leBytes 16 (c.len * 8)).reverse))

/-- Hash the whole blocks of a padded message. -/
def shaBlocks : Nat → List Word → List Byte → List Word
  | 0, h, _ => h
  | n + 1, h, bs => shaBlocks n (shaBlock h (bs.take 128)) (bs.drop 128)

/-- SHA-384 of a byte string. -/
def sha384 (bs : List Byte) : List Byte :=
  let n := (bs.length + 17 + 127) / 128
  let padded := padTo (n * 128 - 16) (bs ++ [0x80]) ++ (leBytes 16 (bs.length * 8)).reverse
  shaDigest (shaBlocks n ShaCtx.init.h padded)

end Sys2Proof.Machine
end

