-- ==== Sys2Proof/Machine/Mem.lean ====
section
/-! DEFINITION. The host-side memory-management functions TDH.MEM.* (40_seamcall_mem.md rules R420 to R433). -/

namespace Sys2Proof.Machine

/-- RCX and RDX, 0 on every return that gives them no other value (R420). -/
def memOuts : List (Reg × Word) := [(.rcx, 0), (.rdx, 0)]

/-- RCX, RDX and R8, 0 on every return that gives them no other value (R428, R433). -/
def chunkOuts : List (Reg × Word) := [(.rcx, 0), (.rdx, 0), (.r8, 0)]

/-- CHLDCNT grows by the number of 4KB pages (R121). -/
def Tdr.addChildren (t : Tdr) (n : Nat) : Tdr := { t with chldcnt := t.chldcnt + n }

/-- CHLDCNT shrinks by the number of 4KB pages (R121). -/
def Tdr.dropChildren (t : Tdr) (n : Nat) : Tdr := { t with chldcnt := t.chldcnt - n }

/-- The number of 4KB pages in a page of a level. -/
def pages4k (level : Nat) : Nat := 512 ^ level

/-- The PAMT entries of a page that a Secure EPT entry names hold no poison (R271, R785): those of the 4KB, 2MB and 1GB
blocks around it, although the functions name only one of them. DESIGN CHOICE (log entry 81). -/
def reqPamt (s : State) (a : Nat) : Fn Unit := req (pamtReadable s a) .unbreakable

/-- TLB tracking of the page with the given BEPOCH is done, else TDX_TLB_TRACKING_NOT_DONE (R262). The functions that lock the
page's PAMT entry do so before, so that a busy lock shows before poison in it: DESIGN CHOICE (log entry 83). -/
def reqTracked (s : State) (c : Tdcs) (a level : Nat) : Fn Unit := do
  reqPamt s a
  req (tlbTrackingDone c (pamtAt s a level).bepoch) (eptBad Status.tlbTrackingNotDone)

/-! ## TDH.MEM.PAGE.ADD (R420) -/

/-- The extension buffer of TDH.MEM.PAGE.ADD: "MEM.PAGE.ADD", then the GPA at byte 16. -/
def pageAddBlock (gpa : Nat) : List Byte :=
  padTo 16 [0x4D, 0x45, 0x4D, 0x2E, 0x50, 0x41, 0x47, 0x45, 0x2E, 0x41, 0x44, 0x44] ++ padTo 112 (leBytes 8 gpa)

/-- R420. -/
def memPageAdd (s : State) : Fn State := do
  let (l, td, t, c, _, gpa) ← openMap s .exclusive 0 0
  req (!c.finalized) (bad Status.tdFinalized 0)
  let (l, a) ← takeFreePage s l Operand.r8 (s.hreg .r8) 0
  let src ← checkShared s Operand.r9 (s.hreg .r9) 4096
  let (_, p) ← lockWalk s l td t c gpa (some 0) .exclusive
  req (p.entry.state == .free) (eptBad Status.eptEntryNotFree)
  let bytes ← readShared s src 4096
  let s1 := writeDirect s t.hkid a bytes
  let s2 := s1.setSept p.addr ⟨.present, true, a⟩
  let s3 := s2.modTdcs td fun c => { c with mrtdContext := c.mrtdContext.update (pageAddBlock gpa) }
  let s4 := s3.modTdr td fun t => t.addChildren 1
  pure (hostReturn (s4.assignPage a 0 .reg td) Status.success 0 memOuts)

/-- TDH.MEM.PAGE.ADD (R420). -/
def execTdhMemPageAdd (s : State) : Outcome := hostCall false (fun s => withOuts memOuts (memPageAdd s)) s

/-! ## TDH.MEM.PAGE.AUG (R421) -/

/-- R421. The refusal of a TD that is not finalised is the module build's (R421 (a), D3). That it comes after CheckTD and
the tests of the mapping word, and before those of R8, is the model's choice (log entry 49): the source tests
finalisation nowhere in this function. -/
def memPageAug (s : State) : Fn State := do
  let (l, td, t, c, level, gpa) ← openMap s .shared 0 1
  req (!s.plat.augNeedsFinalized || c.finalized) (bad Status.tdNotFinalized 0)
  let (l, a) ← takeFreePage s l Operand.r8 (s.hreg .r8) level
  let (_, p) ← lockWalk s l td t c gpa (some level) .exclusive
  req (p.entry.state == .free) (eptBad Status.eptEntryNotFree)
  let s1 := s.setSept p.addr ⟨.pending, true, a⟩
  let s2 := s1.modTdr td fun t => t.addChildren (pages4k level)
  pure (hostReturn (s2.assignPage a level .reg td) Status.success 0 memOuts)

/-- TDH.MEM.PAGE.AUG (R421). -/
def execTdhMemPageAug (s : State) : Outcome := hostCall false (fun s => withOuts memOuts (memPageAug s)) s

/-! ## TDH.MEM.PAGE.DEMOTE (R422) -/

/-- R422, with the states of decision D4: the children of a pending page are pending, the new non-leaf entry is
present. A busy PAMT entry of the page shows before poison in it: DESIGN CHOICE (log entry 83). -/
def memPageDemote (s : State) : Fn State := do
  let (l, td, t, c, level, gpa) ← openMap s .shared 1 2
  let (l, a) ← takeFreePage s l Operand.r8 (s.hreg .r8) 0
  let (l, p) ← lockWalk s l td t c gpa (some level) .exclusive
  req p.entry.leaf (eptBad Status.eptEntryNotLeaf)
  req p.entry.state.isBlocked (eptBad Status.gpaRangeNotBlocked)
  let _ ← lockOp l (pamtLock p.entry.hpa level) .exclusive Operand.rcx
  reqTracked s c p.entry.hpa level
  let s1 := assignPages (s.freePage p.entry.hpa level) p.entry.hpa (level - 1) .reg td 512
  let s2 := (zeroDirect s1 t.hkid a 4096).fillSeptPage a fun i =>
    ⟨p.entry.state.unblock, true, p.entry.hpa + i * pageBytes (level - 1)⟩
  let s3 := s2.setSept p.addr ⟨.present, false, a⟩
  let s4 := s3.modTdr td fun t => t.addChildren 1
  pure (hostReturn (s4.assignPage a 0 .ept td) Status.success 0 memOuts)

/-- TDH.MEM.PAGE.DEMOTE (R422). -/
def execTdhMemPageDemote (s : State) : Outcome := hostCall false (fun s => withOuts memOuts (memPageDemote s)) s

/-! ## TDH.MEM.PAGE.PROMOTE (R423) -/

/-- The 512 entries of a page are present leaves that map consecutive pages of an aligned large page (R423 step 10). -/
def promotable (s : State) (page level : Nat) : Bool :=
  isAligned (septAt s page).hpa (pageBytes level) &&
    (List.range 512).all fun i =>
      let e := septAt s (page + 8 * i)
      e.leaf && e.state == .present && e.hpa == (septAt s page).hpa + i * pageBytes (level - 1)

/-- R423. The operand id RCX for a busy merged range, which no register names, is the model's choice (log entry 58), and so
is that all 512 entries are read before the conditions are tested (log entry 77), and that a busy PAMT entry shows before
poison in it (log entry 83). -/
def memPagePromote (s : State) : Fn State := do
  let (l, td, t, c, level, gpa) ← openMap s .shared 1 2
  let (l, p) ← lockWalk s l td t c gpa (some level) .exclusive
  req (!p.entry.leaf) (eptBad Status.eptEntryLeaf)
  req (p.entry.state == .blocked) (eptBad Status.gpaRangeNotBlocked)
  let l ← lockOp l (.pamt4k p.entry.hpa) .exclusive Operand.rcx
  reqTracked s c p.entry.hpa 0
  req (pageReadable s t.hkid p.entry.hpa) .unbreakable
  req (promotable s p.entry.hpa level) (eptBad Status.eptInvalidPromoteConditions)
  let big := (septAt s p.entry.hpa).hpa
  let _ ← lockOp l (pamtLock big level) .exclusive Operand.rcx
  reqPamt s big
  let s1 := (freePages s big (level - 1) 512).assignPage big level .reg td
  let s2 := (s1.clearSeptPage p.entry.hpa).setSept p.addr ⟨.present, true, big⟩
  let s3 := s2.modTdr td fun t => t.dropChildren 1
  pure (hostReturn (s3.freePage p.entry.hpa 0) Status.success 0 [(.rcx, w64 p.entry.hpa), (.rdx, 0)])

/-- TDH.MEM.PAGE.PROMOTE (R423). -/
def execTdhMemPagePromote (s : State) : Outcome := hostCall false (fun s => withOuts memOuts (memPagePromote s)) s

/-! ## TDH.MEM.PAGE.RELOCATE (R424) -/

/-- The bytes of a page read under a private HKID; poison is the module's unbreakable shutdown (R271). -/
def readPage (s : State) (hkid a : Nat) : Fn (List Byte) := do
  req (!poisoned s hkid a 4096) .unbreakable
  pure (readBytes s hkid a 4096)

/-- Step 10 of R424: the content is copied unless the page was pending. -/
def copyPage (s : State) (hkid old new : Nat) (copied : Bool) : Fn State :=
  if copied then do
    let bytes ← readPage s hkid old
    pure (writeDirect s hkid new bytes)
  else pure s

/-- R424. A busy PAMT entry of the old page shows before poison in it: DESIGN CHOICE (log entry 83). -/
def memPageRelocate (s : State) : Fn State := do
  let (l, td, t, c, _, gpa) ← openMap s .shared 0 0
  let (l, a) ← takeFreePage s l Operand.r8 (s.hreg .r8) 0
  let (l, p) ← lockWalk s l td t c gpa (some 0) .exclusive
  req (p.entry.leaf && p.entry.state.isBlocked) (eptBad Status.gpaRangeNotBlocked)
  req (p.entry.hpa != a) (bad Status.operandInvalid Operand.r8)
  let _ ← lockOp l (.pamt4k p.entry.hpa) .exclusive Operand.rcx
  reqTracked s c p.entry.hpa 0
  let s1 ← copyPage s t.hkid p.entry.hpa a (p.entry.state == .blocked)
  let s2 := (s1.freePage p.entry.hpa 0).assignPage a 0 .reg td
  pure (hostReturn (s2.setSept p.addr ⟨p.entry.state.unblock, true, a⟩) Status.success 0 memOuts)

/-- TDH.MEM.PAGE.RELOCATE (R424). -/
def execTdhMemPageRelocate (s : State) : Outcome :=
  hostCall false (fun s => withOuts memOuts (memPageRelocate s)) s

/-! ## TDH.MEM.PAGE.REMOVE (R425) -/

/-- R425. A busy PAMT entry of the page shows before poison in it: DESIGN CHOICE (log entry 83). -/
def memPageRemove (s : State) : Fn State := do
  let (l, td, t, c, level, gpa) ← openMap s .shared 0 2
  let (l, p) ← lockWalk s l td t c gpa (some level) .exclusive
  req p.entry.leaf (eptBad Status.eptEntryNotLeaf)
  req p.entry.state.isBlocked (eptBad Status.gpaRangeNotBlocked)
  let _ ← lockOp l (pamtLock p.entry.hpa level) .exclusive Operand.rcx
  reqTracked s c p.entry.hpa level
  let s1 := s.modTdr td fun t => t.dropChildren (pages4k level)
  let s2 := (s1.freePage p.entry.hpa level).setSept p.addr SeptEntry.free
  pure (hostReturn s2 Status.success 0 [(.rcx, w64 p.entry.hpa), (.rdx, 0)])

/-- TDH.MEM.PAGE.REMOVE (R425). -/
def execTdhMemPageRemove (s : State) : Outcome := hostCall false (fun s => withOuts memOuts (memPageRemove s)) s

/-! ## TDH.MEM.RANGE.BLOCK (R426) -/

/-- The compare-exchange of step 8 of R426 loses: a TDG.MEM.PAGE.ACCEPT holds the pending entry (R256) and the
environment gives it the race (log entry 70). -/
def blockLoses (s : State) (p : SeptPos) : Bool :=
  s.raceLost && p.entry.state == .pending && (lockState s.locks (.septEntry p.addr)).isSome

/-- R426. Poison of the PAMT entry shows before a lost compare-exchange: DESIGN CHOICE (log entry 81). -/
def memRangeBlock (s : State) : Fn State := do
  let (l, td, t, c, level, gpa) ← openMap s .shared 0 4
  let (_, p) ← lockWalk s l td t c gpa (some level) .exclusive
  req (p.entry.state != .free) (eptBad Status.eptEntryFree)
  req (!p.entry.state.isBlocked) (eptBad Status.gpaRangeAlreadyBlocked)
  reqPamt s p.entry.hpa
  req (!blockLoses s p) (bad Status.operandBusy Operand.sept)
  let s1 := s.setSept p.addr { p.entry with state := p.entry.state.block }
  pure (hostReturn (s1.setBepoch p.entry.hpa p.mapsLevel c.tdEpoch) Status.success 0 memOuts)

/-- TDH.MEM.RANGE.BLOCK (R426). -/
def execTdhMemRangeBlock (s : State) : Outcome := hostCall false (fun s => withOuts memOuts (memRangeBlock s)) s

/-! ## TDH.MEM.RANGE.UNBLOCK (R427) -/

/-- R427. -/
def memRangeUnblock (s : State) : Fn State := do
  let (l, td, t, c, level, gpa) ← openMap s .shared 0 4
  let (_, p) ← lockWalk s l td t c gpa (some level) .exclusive
  req p.entry.state.isBlocked (eptBad Status.gpaRangeNotBlocked)
  reqTracked s c p.entry.hpa p.mapsLevel
  let s1 := s.setSept p.addr { p.entry with state := p.entry.state.unblock }
  pure (hostReturn s1 Status.success 0 memOuts)

/-- TDH.MEM.RANGE.UNBLOCK (R427). -/
def execTdhMemRangeUnblock (s : State) : Outcome :=
  hostCall false (fun s => withOuts memOuts (memRangeUnblock s)) s

/-! ## TDH.MEM.RD and TDH.MEM.WR (R428, R433) -/

/-- The opening of TDH.MEM.RD and TDH.MEM.WR: the locks with those it takes, the chunk as a TDH.MEM.WR that has read it (R428
and R433 up to step 8). That the chunk's GPA is tested for being private (bits above 51 among them) after the TDR and before
ATTRIBUTES.DEBUG, where the rules list the test with the alignment, is a DESIGN CHOICE (log entry 90). -/
def openChunk (s : State) : Fn (Locks × MemWrRun) := do
  let gpa := (s.hreg .rcx).toNat
  req (isAligned gpa 8) (bad Status.operandInvalid Operand.rcx)
  let (l, td, t, c) ← openTd s Operand.rdx (s.hreg .rdx) .shared
  req (c.privateGpa gpa) (bad Status.operandInvalid Operand.rcx)
  req c.debug (bad Status.tdNonDebug 0)
  let (l, p) ← lockWalk s l td t c gpa none .shared
  req (p.entry.state == .present) (eptBad Status.eptEntryNotPresent)
  let a := p.entry.hpa + gpa % pageBytes p.level
  req (!poisoned s t.hkid a 8) .unbreakable
  pure (l, ⟨td, a, t.hkid, septEntryOut c p.entry, septInfoOut p.level p.entry, read64 s t.hkid a⟩)

/-- R428. -/
def memRd (s : State) : Fn State := do
  let (_, r) ← openChunk s
  pure (hostReturn s Status.success 0 [(.rcx, 0), (.rdx, 0), (.r8, r.old)])

/-- TDH.MEM.RD (R428). -/
def execTdhMemRd (s : State) : Outcome := hostCall false (fun s => withOuts chunkOuts (memRd s)) s

/-- Step 9 and the end of TDH.MEM.WR: the chunk is written, R8 returns what step 8 read. -/
def memWrStore (s : State) (r : MemWrRun) : State :=
  hostReturn (writeCached s r.hkid r.hpa (leBytes 8 (s.hreg .r8).toNat)) Status.success 0
    [(.rcx, r.rcx), (.rdx, r.rdx), (.r8, r.old)]

/-- The locks that TDH.MEM.WR took given back: of the Secure EPT tree, of the TDR page and of the blocks around it. -/
def releaseChunk (l : Locks) (td : Nat) : Locks :=
  [LockId.sept td, .pamt4k td, .pamt2m (pageBase td 1), .pamt1g (pageBase td 2)].foldl release l

/-- R433 to its end, or up to step 8 where the environment lets other agents act between steps 8 and 9 (corner case (b)):
the locks stay held, and no register changes. -/
def memWr (s : State) : Fn State := do
  let (l, r) ← openChunk s
  pure (if s.lp.yieldAt.isSome then { s with locks := l }.modLp fun x => { x with memWr := some r } else memWrStore s r)

/-- Step 9 of a TDH.MEM.WR that other agents' steps came into: the locks are given back. The write, narrower than a line,
ignores poison (R272). -/
def memWrResume (s : State) (r : MemWrRun) : State :=
  memWrStore ({ s with locks := releaseChunk s.locks r.tdr }.modLp fun x => { x with memWr := none }) r

/-- TDH.MEM.WR (R433): from its start, or from between steps 8 and 9 where it stands there (log entry 91). What other
agents did meanwhile (a module shut down, TDX disabled) does not end it: R321 and R752 are tested when SEAMCALL begins. -/
def execTdhMemWr (s : State) : Outcome :=
  match s.lp.memWr with
  | none => hostCall false (fun s => withOuts chunkOuts (memWr s)) s
  | some r => (lpStop s).getD (.next (memWrResume s r))

/-! ## TDH.MEM.SEPT.ADD (R429) -/

/-- R429. -/
def memSeptAdd (s : State) : Fn State := do
  let (l, td, t, c, level, gpa) ← openMap s .shared 1 4
  let (l, a) ← takeFreePage s l Operand.r8 (s.hreg .r8) 0
  let (_, p) ← lockWalk s l td t c gpa (some level) .exclusive
  req (p.entry.state == .free) (eptBad Status.eptEntryNotFree)
  let e : SeptEntry := ⟨.present, false, a⟩
  let s1 := ((zeroDirect s t.hkid a 4096).clearSeptPage a).setSept p.addr e
  let s2 := s1.modTdr td fun t => t.addChildren 1
  pure (hostReturn (s2.assignPage a 0 .ept td) Status.success 0 (septOuts c ⟨p.addr, level, e⟩))

/-- TDH.MEM.SEPT.ADD (R429). -/
def execTdhMemSeptAdd (s : State) : Outcome := hostCall false (fun s => withOuts memOuts (memSeptAdd s)) s

/-! ## TDH.MEM.SEPT.RD (R430) -/

/-- R430. -/
def memSeptRd (s : State) : Fn State := do
  let (l, td, t, c, level, gpa) ← openMap s .shared 0 4
  let (_, p) ← lockWalk s l td t c gpa (some level) .shared
  pure (hostReturn s Status.success 0 (septOuts c p))

/-- TDH.MEM.SEPT.RD (R430). -/
def execTdhMemSeptRd (s : State) : Outcome := hostCall false (fun s => withOuts memOuts (memSeptRd s)) s

/-! ## TDH.MEM.SEPT.REMOVE (R431) -/

/-- R431. All 512 entries are read before step 9 decides (log entry 77), and a busy PAMT entry of the page shows before
poison in it (log entry 83): DESIGN CHOICE. -/
def memSeptRemove (s : State) : Fn State := do
  let (l, td, t, c, level, gpa) ← openMap s .shared 1 4
  let (l, p) ← lockWalk s l td t c gpa (some level) .exclusive
  req (!p.entry.leaf) (eptBad Status.eptEntryLeaf)
  req (p.entry.state == .blocked) (eptBad Status.gpaRangeNotBlocked)
  let _ ← lockOp l (.pamt4k p.entry.hpa) .exclusive Operand.rcx
  reqTracked s c p.entry.hpa 0
  req (pageReadable s t.hkid p.entry.hpa) .unbreakable
  req (septPageFree s p.entry.hpa) (eptBad Status.eptEntryNotFree)
  let s1 := s.modTdr td fun t => t.dropChildren 1
  let s2 := (s1.freePage p.entry.hpa 0).setSept p.addr SeptEntry.free
  pure (hostReturn s2 Status.success 0 [(.rcx, w64 p.entry.hpa), (.rdx, 0)])

/-- TDH.MEM.SEPT.REMOVE (R431). -/
def execTdhMemSeptRemove (s : State) : Outcome := hostCall false (fun s => withOuts memOuts (memSeptRemove s)) s

/-! ## TDH.MEM.TRACK (R432) -/

/-- R432. -/
def memTrack (s : State) : Fn State := do
  let (l, td, _, c) ← openTd s Operand.rcx (s.hreg .rcx) .shared
  let _ ← lockOp l (.epoch td) .exclusive Operand.tdEpoch
  req (c.refcount (c.tdEpoch.toNat + 1) == 0) (bad Status.previousTlbEpochBusy 0)
  pure (hostReturn (s.modTdcs td fun c => { c with tdEpoch := c.tdEpoch + 1 }) Status.success 0 [])

/-- TDH.MEM.TRACK (R432). -/
def execTdhMemTrack (s : State) : Outcome := hostCall false memTrack s

end Sys2Proof.Machine
end

