-- ==== Sys2Proof/Machine/Phymem.lean ====
section
/-! DEFINITION. The host-side physical-memory functions TDH.PHYMEM.* (42_seamcall_phymem_sys.md rules R480 to R483)
and the key ownership table (10_state.md rule R52). -/

namespace Sys2Proof.Machine

/-! ## Key ownership table (R52) -/

/-- Kot[hkid]. -/
def kotAt (s : State) (h : Nat) : KotEntry := (tblGet s.kot h).getD ⟨.free, []⟩

/-- Write Kot[hkid]. -/
def State.setKot (s : State) (h : Nat) (e : KotEntry) : State := { s with kot := tblSet s.kot h e }

/-- The WBCACHE_BITMAP with a bit for every write-back scope of the platform (R457 step 5). -/
def allScopes (p : Platform) : List Nat := p.scopes

/-! ## TDH.PHYMEM.CACHE.WB (R480) -/

/-- WBT[scope]. -/
def wbtAt (s : State) (scope : Nat) : WbtEntry := (tblGet s.wbt scope).getD ⟨none, []⟩

/-- Write WBT[scope]. -/
def State.setWbt (s : State) (scope : Nat) (e : WbtEntry) : State := { s with wbt := tblSet s.wbt scope e }

/-- The HKIDs in state HKID_FLUSHED. -/
def flushedHkids (s : State) : List Nat := (s.kot.filter fun e => e.2.state == .flushed).map (·.1)

/-- The bit of a scope cleared in the bitmaps of the listed HKIDs (R480 step 4.1). -/
def clearScope (s : State) (scope : Nat) : List Nat → State
  | [] => s
  | h :: hs =>
    clearScope (s.setKot h { kotAt s h with wbcache := (kotAt s h).wbcache.filter fun x => x != scope }) scope hs

/-- The modified cache entries of a scope. -/
def scopeEntries (s : State) (scope : Nat) : List (Nat × CacheEntry) :=
  s.mem.cache.filter fun e => e.2.scope == scope && e.2.modified

/-- Write back everything modified in the caches of a scope; the lines stay cached (R480, R275). -/
def writeBackScope (s : State) (scope : Nat) : State :=
  flushStale (cleanEntries s (scopeEntries s scope)) scope

/-- Steps 3 and 4 of R480: the write-back. An external event interrupts it after as many lines as the environment says
(R745, log entry 54); the recorded point is that number. -/
def cacheWbRun (s : State) (scope : Nat) (set : List Nat) : State :=
  match s.lp.intrPending with
  | some n =>
    let s1 := cleanEntries s ((scopeEntries s scope).take n)
    hostReturn (s1.setWbt scope ⟨some n, set⟩) Status.interruptedResumable 0 []
  | none => hostReturn (clearScope ((writeBackScope s scope).setWbt scope ⟨none, set⟩) scope set) Status.success 0 []

/-- R480. -/
def phymemCacheWb (s : State) : Fn State := do
  req (s.hreg .rcx == 0 || s.hreg .rcx == 1) (bad Status.operandInvalid Operand.rcx)
  let sc := s.plat.scopeOf s.curLp
  let l ← lockOp s.locks .kot .shared Operand.kot
  let _ ← lockOp l (.wbt sc) .exclusive Operand.wbcache
  if s.hreg .rcx = 0 then
    if flushedHkids s = [] then
      pure (hostReturn (s.setWbt sc ⟨none, []⟩) Status.noHkidReadyToWbcache 0 [])
    else pure (cacheWbRun s sc (flushedHkids s))
  else do
    req (wbtAt s sc).intrPoint.isSome (bad Status.wbcacheResumeError 0)
    pure (cacheWbRun s sc (wbtAt s sc).hkidSet)

/-- TDH.PHYMEM.CACHE.WB (R480). -/
def execTdhPhymemCacheWb (s : State) : Outcome := hostCall false phymemCacheWb s

/-! ## TDH.PHYMEM.PAGE.RDMD (R481) -/

/-- The number of a page type (R481). -/
def PageType.code : PageType → Nat
  | .nda => 0 | .rsvd => 1 | .reg => 3 | .tdr => 4 | .tdcx => 5 | .tdvpr => 6 | .tdvpx => 7 | .ept => 8

/-- RCX, RDX and R8 to R11, 0 on every return that gives them no other value (R481, R482, D31). -/
def pageOuts : List (Reg × Word) := [(.rcx, 0), (.rdx, 0), (.r8, 0), (.r9, 0), (.r10, 0), (.r11, 0)]

/-- R481. Poison in the entry of a level that PamtWalk does not visit is consumed too: DESIGN CHOICE (log entry 85). -/
def phymemPageRdmd (s : State) : Fn State := do
  let a ← checkHpa s Operand.rcx (s.hreg .rcx) 4096
  let e := (pamtWalk s a).1
  let level := (pamtWalk s a).2
  let _ ← lockPage s.locks (pageBase a level) level .shared .shared Operand.rcx
  pure (hostReturn s Status.success 0
    [(.rcx, w64 e.pt.code), (.rdx, w64 e.owner), (.r8, w64 level), (.r9, e.bepoch), (.r10, 0), (.r11, 0)])

/-- TDH.PHYMEM.PAGE.RDMD (R481). -/
def execTdhPhymemPageRdmd (s : State) : Outcome := hostCall false (fun s => withOuts pageOuts (phymemPageRdmd s)) s

/-! ## TDH.PHYMEM.PAGE.RECLAIM (R482) -/

/-- PT, OWNER and size in RCX, RDX and R8 (R482). -/
def reclaimOuts (e : PamtEntry) (level : Nat) : List (Reg × Word) :=
  [(.rcx, w64 e.pt.code), (.rdx, w64 e.owner), (.r8, w64 level), (.r9, 0), (.r10, 0), (.r11, 0)]

/-- A reclaimed page's control structure is no longer one: the TDR and its TDCS, or the TDVPS, are gone. -/
def State.forget (s : State) (a : Nat) (pt : PageType) : State :=
  match pt with
  | .tdr => { s with tdrs := tblDel s.tdrs a, tdcss := tblDel s.tdcss a }
  | .tdvpr => { s with vps := tblDel s.vps a }
  | _ => s

/-- Step 2 of R482: a page of a TD. That a busy PAMT entry of its TDR shows before poison in that entry is a DESIGN CHOICE
(log entry 83). -/
def reclaimChild (s : State) (l : Locks) (a level : Nat) (e : PamtEntry) : Fn State := do
  let _ ← getOr (acquire l (.pamt4k e.owner) .shared)
    (.status Status.operandBusy Operand.tdr (reclaimOuts e level))
  req (pamtReadable s e.owner) .unbreakable
  let t ← getTdr s e.owner
  req (t.lifecycle == .teardown) (.status Status.lifecycleStateIncorrect 0 (reclaimOuts e level))
  let s1 := s.modTdr e.owner fun t => { t with chldcnt := t.chldcnt - 512 ^ level }
  pure (hostReturn ((s1.forget a e.pt).freePage a level) Status.success 0 (reclaimOuts e level))

/-- Step 3 of R482: a TDR page. -/
def reclaimTdr (s : State) (a : Nat) (e : PamtEntry) : Fn State := do
  let t ← getTdr s a
  req (t.lifecycle == .teardown) (.status Status.lifecycleStateIncorrect 0 (reclaimOuts e 0))
  req (t.chldcnt == 0) (.status Status.tdAssociatedPagesExist 0 (reclaimOuts e 0))
  pure (hostReturn ((s.forget a e.pt).freePage a 0) Status.success 0 (reclaimOuts e 0))

/-- R482. Poison in the entry of a level that PamtWalk does not visit is consumed too: DESIGN CHOICE (log entry 85). -/
def phymemPageReclaim (s : State) : Fn State := do
  let a ← checkHpa s Operand.rcx (s.hreg .rcx) 4096
  let e := (pamtWalk s a).1
  let level := (pamtWalk s a).2
  let l ← lockPage s.locks (pageBase a level) level .exclusive .shared Operand.rcx
  req (e.pt != .nda && e.pt != .rsvd) (bad Status.pageMetadataIncorrect Operand.rcx)
  req (isAligned a (pageBytes level)) (.status Status.operandInvalid Operand.rcx (reclaimOuts e level))
  if e.pt = .tdr then reclaimTdr s a e else reclaimChild s l a level e

/-- TDH.PHYMEM.PAGE.RECLAIM (R482). -/
def execTdhPhymemPageReclaim (s : State) : Outcome :=
  hostCall false (fun s => withOuts pageOuts (phymemPageReclaim s)) s

/-! ## TDH.PHYMEM.PAGE.WBINVD (R483) -/

/-- A physical address with its HKID bits cleared, the bits above MAX_PA kept. -/
def clearHkid (p : Platform) (pa : Word) : Word := w64 (pa.toNat / 2 ^ p.maxPa * 2 ^ p.maxPa + addrOf p pa.toNat)

/-- Write back and invalidate the lines of a page under an HKID. -/
def flushPage (s : State) (hkid a : Nat) : State :=
  flushStaleLines (flushEntries s (entriesIn s hkid a 4096)) hkid (linesOf a 4096)

/-- R483. -/
def phymemPageWbinvd (s : State) : Fn State := do
  let a ← checkHpa s Operand.rcx (clearHkid s.plat (s.hreg .rcx)) 4096
  let _ ← lockPage4k s.locks a .shared .shared Operand.rcx
  req ((pamtWalk s a).1.pt == .nda) (bad Status.pageMetadataIncorrect Operand.rcx)
  pure (hostReturn (flushPage s (hkidOf s.plat (s.hreg .rcx).toNat) a) Status.success 0 [])

/-- TDH.PHYMEM.PAGE.WBINVD (R483). -/
def execTdhPhymemPageWbinvd (s : State) : Outcome := hostCall false phymemPageWbinvd s

end Sys2Proof.Machine
end

