-- ==== Sys2Proof/Machine/Sys.lean ====
section
/-! DEFINITION. The host-side module-management functions TDH.SYS.* (42_seamcall_phymem_sys.md rules R484 to R490; the
structures of 31_data_types.md rules R392 to R394). -/

namespace Sys2Proof.Machine

/-- The lock on the module's internal variables; busy is TDX_SYS_BUSY. -/
def lockSys (s : State) (m : LockMode) : Fn Locks := lockOr s.locks .sys m Status.sysBusy 0

/-- The TDH.SYS.* functions of the initialisation sequence refuse a module being shut down. -/
def notShutdown (s : State) : Fn Unit := req (s.sysState != .sysShutdown) (bad Status.sysShutdown 0)

/-! ## TDH.SYS.CONFIG (R484) -/

/-- Is `[lo, hi)` covered by ranges (base, size). The fuel is one more than the number of ranges. -/
def coveredBy (ranges : List (Nat × Nat)) : Nat → Nat → Nat → Bool
  | 0, lo, hi => decide (hi ≤ lo)
  | n + 1, lo, hi =>
    if hi ≤ lo then true
    else
      match ranges.find? fun r => decide (r.1 ≤ lo) && decide (lo < r.1 + r.2) with
      | some r => coveredBy ranges n (r.1 + r.2) hi
      | none => false

/-- The reserved areas of a TDMR as address ranges. -/
def Tdmr.reservedRanges (t : Tdmr) : List (Nat × Nat) := t.reserved.map fun r => (t.base + r.1, r.2)

/-- The PAMT areas of a TDMR: level, base, size. -/
def Tdmr.pamtAreas (t : Tdmr) : List (Nat × Nat × Nat) :=
  [(2, t.pamt1gBase, t.pamt1gSize), (1, t.pamt2mBase, t.pamt2mSize), (0, t.pamt4kBase, t.pamt4kSize)]

/-- The offset and size of reserved area `j` in a TDMR_INFO (R394). -/
def reservedEntry (bs : List Byte) (j : Nat) : Nat × Nat := (fieldAt bs (64 + 16 * j) 8, fieldAt bs (72 + 16 * j) 8)

/-- A TDMR_INFO of 512 bytes with `n` reserved areas (R394); the null areas are dropped. -/
def Tdmr.ofBytes (bs : List Byte) (n : Nat) : Tdmr :=
  { base := fieldAt bs 0 8, size := fieldAt bs 8 8, pamt1gBase := fieldAt bs 16 8, pamt1gSize := fieldAt bs 24 8,
    pamt2mBase := fieldAt bs 32 8, pamt2mSize := fieldAt bs 40 8, pamt4kBase := fieldAt bs 48 8,
    pamt4kSize := fieldAt bs 56 8, reserved := ((List.range n).map (reservedEntry bs)).filter fun r => r.2 != 0,
    next := fieldAt bs 0 8 }

/-- An area below the platform's maximum PA with HKID bits 0. -/
def belowMaxPa (p : Platform) (base size : Nat) : Bool := decide (base + size ≤ 2 ^ p.addrBits)

/-- The PAMT rules of one level of TDMR `i` (R484). -/
def checkPamtArea (p : Platform) (t : Tdmr) (i : Nat) : List (Nat × Nat × Nat) → Fn Unit
  | [] => .ok ()
  | (level, base, size) :: rest => do
    req (isAligned base 4096 && isAligned size 4096 && belowMaxPa p base size &&
        decide (t.size / pageBytes level * p.pamtEntrySize ≤ size))
      (bad Status.invalidPamt (i + 256 * level))
    checkPamtArea p t i rest

/-- The reserved-area rules of TDMR `i` (R484): `last` is the end of the previous area, `null` whether a null area came
before. The offset of a null entry (size 0, R394) is not tested: DESIGN CHOICE (log entry 18). -/
def checkReserved (t : Tdmr) (i : Nat) : Nat → Nat → Bool → List (Nat × Nat) → Fn Unit
  | _, _, _, [] => .ok ()
  | j, last, null, (off, size) :: rest => do
    req (size == 0 || (!null && decide (last ≤ off))) (bad Status.nonOrderedReservedInTdmr (i + 256 * j))
    req (size == 0 || (isAligned off 4096 && isAligned size 4096 && decide (off + size ≤ t.size)))
      (bad Status.invalidReservedInTdmr (i + 256 * j))
    checkReserved t i (j + 1) (if size = 0 then last else off + size) (size == 0) rest

/-- One TDMR_INFO read and checked: `from_` is the end of the previous TDMR (R484 step 3). -/
def checkTdmr (s : State) (i ptr from_ : Nat) : Fn Tdmr := do
  let a ← checkShared s Operand.tdmrInfoPa (w64 ptr) 512
  let bs ← readShared s a 512
  let t := Tdmr.ofBytes bs s.plat.maxReservedPerTdmr
  req (isAligned t.base (pageBytes 2) && decide (0 < t.size) && isAligned t.size (pageBytes 2) &&
      belowMaxPa s.plat t.base t.size)
    (bad Status.invalidTdmr i)
  req (decide (from_ ≤ t.base)) (bad Status.nonOrderedTdmr i)
  checkPamtArea s.plat t i t.pamtAreas
  checkReserved t i 0 0 false ((List.range s.plat.maxReservedPerTdmr).map (reservedEntry bs))
  pure t

/-- The TDMR_INFOs that the pointers name, checked in order. -/
def checkTdmrs (s : State) : Nat → Nat → List Nat → Fn (List Tdmr)
  | _, _, [] => .ok []
  | i, from_, ptr :: rest => do
    let t ← checkTdmr s i ptr from_
    let ts ← checkTdmrs s (i + 1) (t.base + t.size) rest
    pure (t :: ts)

/-- Every PAMT area with the index of its TDMR. -/
def allPamtAreas : Nat → List Tdmr → List (Nat × Nat × Nat × Nat)
  | _, [] => []
  | i, t :: ts => t.pamtAreas.map (fun a => (i, a)) ++ allPamtAreas (i + 1) ts

/-- The index of the first TDMR whose non-reserved part an area overlaps. -/
def overlappedTdmr (base size : Nat) : Nat → List Tdmr → Option Nat
  | _, [] => none
  | i, t :: ts =>
    if overlaps base size t.base t.size &&
        !coveredBy t.reservedRanges (t.reserved.length + 1) (max base t.base) (min (base + size) (t.base + t.size))
    then some i
    else overlappedTdmr base size (i + 1) ts

/-- The TDMR index that a PAMT area overlaps: of another PAMT area, else of a non-reserved part, the lowest first. Which
of several overlaps is reported is a DESIGN CHOICE (log entry 18). -/
def pamtOverlapWith (ts : List Tdmr) (i level base size : Nat) : Option Nat :=
  match (allPamtAreas 0 ts).find? fun x =>
      !(x.1 == i && x.2.1 == level) && overlaps base size x.2.2.1 x.2.2.2 with
  | some x => some x.1
  | none => overlappedTdmr base size 0 ts

/-- No PAMT area overlaps another one or a non-reserved part (R484); the areas in table order, for each TDMR 1G, 2M, 4K:
DESIGN CHOICE (log entry 18). -/
def checkOverlaps (ts : List Tdmr) : List (Nat × Nat × Nat × Nat) → Fn Unit
  | [] => .ok ()
  | (i, level, base, size) :: rest =>
    match pamtOverlapWith ts i level base size with
    | some k => .error (bad Status.pamtOverlap (i + 256 * level + 65536 * k))
    | none => checkOverlaps ts rest

/-- Every non-reserved page of every TDMR lies in a CMR (R484). -/
def checkCmrs (p : Platform) : Nat → List Tdmr → Fn Unit
  | _, [] => .ok ()
  | i, t :: ts => do
    let ranges := t.reservedRanges ++ p.cmrs
    req (coveredBy ranges (ranges.length + 1) t.base (t.base + t.size)) (bad Status.tdmrOutsideCmrs i)
    checkCmrs p (i + 1) ts

/-- Every page of every PAMT area lies in a CMR (R484, R780). -/
def checkPamtCmrs (p : Platform) : List (Nat × Nat × Nat × Nat) → Fn Unit
  | [] => .ok ()
  | (i, level, base, size) :: rest => do
    req (coveredBy p.cmrs (p.cmrs.length + 1) base (base + size)) (bad Status.pamtOutsideCmrs (i + 256 * level))
    checkPamtCmrs p rest

/-- The KOT after TDH.SYS.CONFIG (R52). -/
def initialKot (p : Platform) (global : Nat) : Table KotEntry :=
  (List.range' p.minPrivateHkid (p.maxHkid + 1 - p.minPrivateHkid)).map fun h =>
    (h, ⟨if h = global then .reserved else .free, []⟩)

/-- R484. The whole pointer array is read before the first TDMR_INFO: DESIGN CHOICE (log entry 18). -/
def sysConfig (s : State) : Fn State := do
  notShutdown s
  let _ ← lockSys s .exclusive
  req (s.sysState == .sysinitDone) (bad s.plat.statusSysConfigNotPending 0)
  req (s.lps.all fun l => l.initDone) (bad s.plat.statusSysConfigNotPending 0)
  let n := (s.hreg .rdx).toNat
  req (decide (1 ≤ n) && decide (n ≤ min 64 s.plat.maxTdmrs)) (bad Status.operandInvalid Operand.rdx)
  let a ← checkShared s Operand.rcx (s.hreg .rcx) 512
  let ptrs ← readShared s a (8 * n)
  let ts ← checkTdmrs s 0 0 ((bytesWords n ptrs).map BitVec.toNat)
  checkOverlaps ts (allPamtAreas 0 ts)
  checkCmrs s.plat 0 ts
  checkPamtCmrs s.plat (allPamtAreas 0 ts)
  let g := bitsOf (s.hreg .r8) 15 0
  req (bitsOf (s.hreg .r8) 63 16 == 0 && inPrivateRange s.plat g) (bad Status.operandInvalid Operand.r8)
  pure (hostReturn
    { s with tdmrs := ts, globalHkid := g, kot := initialKot s.plat g, pkgConfigBitmap := 0,
             sysState := .sysconfigDone }
    Status.success 0 [])

/-- TDH.SYS.CONFIG (R484). -/
def execTdhSysConfig (s : State) : Outcome := hostCall true sysConfig s

/-! ## TDH.SYS.INFO (R485) -/

/-- The bytes of the registers of CPUID, EAX first (R385). -/
def CpuidRegs.bytes (r : CpuidRegs) : List Byte :=
  leBytes 4 r.eax.toNat ++ leBytes 4 r.ebx.toNat ++ leBytes 4 r.ecx.toNat ++ leBytes 4 r.edx.toNat

/-- One CPUID_CONFIG (R397): LEAF, SUB_LEAF (-1 for none), then the four registers. -/
def CpuidConfig.bytes (c : CpuidConfig) : List Byte :=
  leBytes 4 c.leaf ++ leBytes 4 (c.sub.getD 0xFFFFFFFF) ++ c.mask.bytes

/-- What TDH.SYS.INFO reports for an entry and TDH.MNG.INIT checks: a bit that R672 or R675 makes configurable only if
native, and whose native value is 0, is not configurable (R688). -/
def CpuidConfig.effective (c : CpuidConfig) : CpuidConfig :=
  let n := Config.nativeCpuid c.leaf (c.sub.getD 0)
  if c.leaf = 1 then
    { c with mask := { c.mask with ecx := c.mask.ecx &&& (n.2.2.1 ||| ~~~0x44180)
                                   edx := c.mask.edx &&& (n.2.2.2 ||| ~~~0xB0400000) } }
  else if c.leaf = 7 ∧ c.sub = some 0 then
    { c with mask := { c.mask with ebx := c.mask.ebx &&& (n.2.1 ||| ~~~0x89108)
                                   ecx := c.mask.ecx &&& (n.2.2.1 ||| ~~~0x2020)
                                   edx := c.mask.edx &&& (n.2.2.2 ||| ~~~0x40000) } }
  else c

/-- TDSYSINFO_STRUCT (R392). -/
def sysInfoImage (p : Platform) : List Byte :=
  padTo 1024
    (leBytes 4 p.moduleAttributes ++ leBytes 4 p.vendorId ++ leBytes 4 p.buildDate ++ leBytes 2 p.buildNum ++
      leBytes 2 p.minorVersion ++ leBytes 2 p.majorVersion ++ leBytes 14 0 ++ leBytes 2 p.maxTdmrs ++
      leBytes 2 p.maxReservedPerTdmr ++ leBytes 2 p.pamtEntrySize ++ leBytes 10 0 ++ leBytes 2 p.tdcsBaseSize ++
      leBytes 2 0 ++ leBytes 2 p.tdvpsBaseSize ++ leBytes 10 0 ++ leBytes 8 p.attributesFixed0.toNat ++
      leBytes 8 p.attributesFixed1.toNat ++ leBytes 8 p.xfamFixed0.toNat ++ leBytes 8 p.xfamFixed1.toNat ++
      leBytes 32 0 ++ leBytes 4 p.cpuidConfig.length ++ p.cpuidConfig.flatMap fun c => c.effective.bytes)

/-- The 32 CMR_INFO entries (R393). -/
def cmrImage (p : Platform) : List Byte := padTo 512 (p.cmrs.flatMap fun c => leBytes 8 c.1 ++ leBytes 8 c.2)

/-- R485. Both buffers are tested for memory behind them before either is written: DESIGN CHOICE (log entry 72). -/
def sysInfo (s : State) : Fn State := do
  notShutdown s
  req (s.sysState != .sysinitPending) (bad Status.sysinitNotDone 0)
  req s.lp.initDone (bad Status.sysinitlpNotDone 0)
  let a ← checkShared s Operand.rcx (s.hreg .rcx) 1024
  let b ← checkShared s Operand.r8 (s.hreg .r8) 512
  req (decide (1024 ≤ (s.hreg .rdx).toNat)) (bad Status.operandInvalid Operand.rdx)
  req (decide (32 ≤ (s.hreg .r9).toNat)) (bad Status.operandInvalid Operand.r9)
  reqBacked s a 1024
  reqBacked s b 512
  let s1 := writeShared (writeShared s a (sysInfoImage s.plat)) b (cmrImage s.plat)
  pure (hostReturn s1 Status.success 0 [(.rdx, 1024), (.r9, 32)])

/-- TDH.SYS.INFO (R485). -/
def execTdhSysInfo (s : State) : Outcome := hostCall true (fun s => withOuts [(.rdx, 0), (.r9, 0)] (sysInfo s)) s

/-! ## TDH.SYS.INIT (R486) -/

/-- RCX, RDX, R8, R9 and R10, 0 but for a CPUID failure (R486). -/
def sysInitOuts : List (Reg × Word) := [(.rcx, 0), (.rdx, 0), (.r8, 0), (.r9, 0), (.r10, 0)]

/-- The registers that carry the extended words of a failing platform check. -/
def checkOuts (regs : List Reg) (f : CheckFailure) (carries : Nat) : List (Reg × Word) :=
  if f.status = carries then regs.zip f.info else []

/-- The bits of IA32_ARCH_CAPABILITIES that must be 1 (R647). -/
def archCapabilitiesOk (p : Platform) : Bool := p.archCapabilities &&& 0x16B == 0x16B

/-- PlatformCheckGlobal (R486 step 4, D34): IA32_MISC_ENABLES.BOOT_NT4 is state and IA32_ARCH_CAPABILITIES a parameter
of its own (R647); the rest is the parameter PLATFORM_OK. The order of the three is the model's (log entry 17). -/
def platformCheckGlobal (s : State) : Fn Unit := do
  req (!bit s.lp.miscEnable 22) (bad Status.bootNt4Set 0)
  req (archCapabilitiesOk s.plat) (bad Status.incorrectMsrValue 0x10A)
  match s.plat.platformOk with
  | none => .ok ()
  | some f =>
    .error (.status f.status f.details (checkOuts [.rcx, .rdx, .r8, .r9, .r10] f Status.incorrectCpuidValue))

/-- R486. -/
def sysInit (s : State) : Fn State := do
  notShutdown s
  let _ ← lockSys s .exclusive
  req (s.sysState == .sysinitPending) (bad Status.sysinitNotPending 0)
  req (s.hreg .rcx == 0) (bad Status.operandInvalid Operand.rcx)
  platformCheckGlobal s
  pure (hostReturn
    { s with sampledTscAdjust := s.lp.tscAdjust, lps := s.lps.map fun l => { l with initDone := false },
             sysState := .sysinitDone }
    Status.success 0 sysInitOuts)

/-- TDH.SYS.INIT (R486). -/
def execTdhSysInit (s : State) : Outcome := hostCall true (fun s => withOuts sysInitOuts (sysInit s)) s

/-! ## Drawing a key (R453 step 5, R487 step 3) -/

/-- The packages whose bits are all set in a bitmap (R46, R123). -/
def coversPackages (p : Platform) (w : Word) : Bool := p.packages.all fun k => bit w k

/-- PCONFIG of a private HKID on the current package: busy, or no entropy, or the key configured. The key identity is
the one the other packages already have for this HKID and owner, or a fresh one (R51). That a busy key table shows before a
lack of entropy is R453's order; for R487, which lists the two the other way round, it is a DESIGN CHOICE (log entry 86). -/
def configureKey (s : State) (hkid : Nat) (done : Word) (owner : KeyOwner) : Fn State := do
  let _ ← lockOp s.locks (.ket s.pkg) .exclusive Operand.ket
  req s.entropyOk (bad s.plat.statusKeyGenerationFailed 0)
  match s.plat.packages.find? fun k => bit done k with
  | some k => pure { s with ket := tblSet s.ket (ketKey s.pkg hkid) ⟨owner, (ketAt s k hkid).key, true⟩ }
  | none => pure { s with ket := tblSet s.ket (ketKey s.pkg hkid) ⟨owner, s.nextKey, true⟩, nextKey := s.nextKey + 1 }

/-! ## TDH.SYS.KEY.CONFIG (R487) -/

/-- R487. -/
def sysKeyConfig (s : State) : Fn State := do
  notShutdown s
  let _ ← lockSys s .exclusive
  req (s.sysState == .sysconfigDone) (bad Status.sysKeyConfigNotPending 0)
  req (!bit s.pkgConfigBitmap s.pkg) (bad Status.keyConfigured 0)
  let s1 ← configureKey s s.globalHkid s.pkgConfigBitmap .module
  let bm := s.pkgConfigBitmap ||| bitAt true s.pkg
  pure (hostReturn
    { s1 with pkgConfigBitmap := bm, sysState := if coversPackages s.plat bm then .sysReady else s.sysState }
    Status.success 0 [])

/-- TDH.SYS.KEY.CONFIG (R487). -/
def execTdhSysKeyConfig (s : State) : Outcome := hostCall true sysKeyConfig s

/-! ## TDH.SYS.LP.INIT (R488) -/

/-- RCX, RDX and R8, 0 but for a CPUID failure (R488). -/
def lpInitOuts : List (Reg × Word) := [(.rcx, 0), (.rdx, 0), (.r8, 0)]

/-- PlatformCheckLp (R488 step 5, D34): IA32_TSC_ADJUST is compared with the sample (R630), IA32_ARCH_CAPABILITIES
checked (R647). That BOOT_NT4, IA32_ARCH_CAPABILITIES and IA32_TSC_ADJUST are tested in this order before the parameter
PLATFORM_LP_OK is the model's choice: R488 gives none (log entry 17). -/
def platformCheckLp (s : State) : Fn Unit := do
  req (!bit s.lp.miscEnable 22) (bad Status.bootNt4Set 0)
  req (archCapabilitiesOk s.plat) (bad Status.incorrectMsrValue 0x10A)
  req (s.lp.tscAdjust == s.sampledTscAdjust) (bad Status.inconsistentMsr 0x3B)
  match tblGet s.plat.platformLpOk s.curLp with
  | none => .ok ()
  | some f => .error (.status f.status f.details (checkOuts [.rcx, .rdx, .r8] f Status.inconsistentCpuidField))

/-- R488: the INVEPT of step 3 has happened even when the check of step 5 fails. -/
def sysLpInit (s : State) : Fn State := do
  notShutdown s
  let _ ← lockSys s .shared
  req (s.sysState != .sysinitPending) (bad Status.sysinitNotDone 0)
  req (!s.lp.initDone) (bad Status.sysinitlpDone 0)
  let s1 := s.modLp fun l => { l with tlb := [] }
  match platformCheckLp s with
  | .ok _ => pure (hostReturn (s1.modLp fun l => { l with initDone := true }) Status.success 0 lpInitOuts)
  | .error a => pure (finishHost s1 (withOuts lpInitOuts (.error a)))

/-- TDH.SYS.LP.INIT (R488). -/
def execTdhSysLpInit (s : State) : Outcome := hostCall true (fun s => withOuts lpInitOuts (sysLpInit s)) s

/-! ## TDH.SYS.LP.SHUTDOWN (R489) -/

/-- R489. -/
def sysLpShutdown (s : State) : Fn State := do
  let _ ← lockSys s .shared
  pure (hostReturn
    ({ s with sysState := .sysShutdown }.modLp fun l => { l with tlb := [], seamcallBlocked := true })
    Status.success 0 [])

/-- TDH.SYS.LP.SHUTDOWN (R489). -/
def execTdhSysLpShutdown (s : State) : Outcome := hostCall true sysLpShutdown s

/-! ## TDH.SYS.TDMR.INIT (R490) -/

/-- Zeros to the 64-byte lines of the PAMT array of a level that hold the entries which step 4 of R490 sets: those of the
pages of that size that begin in `[lo, hi)`, none at 2MB or 1GB where no page of the size begins there. That the bytes are
zeros, and that a line goes whole, so that entries beside these in their first and last line lose their bytes and their
poison too, entries of earlier calls among them, is a DESIGN CHOICE (log entry 69). -/
def zeroPamtLines (s : State) (t : Tdmr) (base level lo hi : Nat) : State :=
  let first := (lo - t.base + pageBytes level - 1) / pageBytes level
  let past := (hi - 1 - t.base) / pageBytes level + 1
  if first < past then
    let a := base + first * s.plat.pamtEntrySize
    let e := base + past * s.plat.pamtEntrySize
    zeroDirect s s.globalHkid (a / 64 * 64) ((e + 63) / 64 * 64 - a / 64 * 64)
  else s

/-- The PAMT entries of the pages of `[lo, hi)` at every level are initial (R490 step 4). -/
def initPamt (s : State) (t : Tdmr) (lo hi : Nat) : State :=
  let s1 := zeroPamtLines (zeroPamtLines (zeroPamtLines s t t.pamt4kBase 0 lo hi) t t.pamt2mBase 1 lo hi)
    t t.pamt1gBase 2 lo hi
  { s1 with pamt4k := clearPamtRange s.pamt4k lo (hi - lo)
            pamt2m := clearPamtRange s.pamt2m lo (hi - lo)
            pamt1g := clearPamtRange s.pamt1g lo (hi - lo) }

/-- The TDMR's next address to initialise after a call (R490 step 4). -/
def Tdmr.nextAfter (t : Tdmr) (chunk : Nat) : Nat := min (t.next + 4096 * max chunk 1) (t.base + t.size)

/-- The page whose PAMT entry a lock is: base and size. -/
def LockId.pamtPage : LockId → Option (Nat × Nat)
  | .pamt4k a => some (a, pageBytes 0)
  | .pamt2m a => some (a, pageBytes 1)
  | .pamt1g a => some (a, pageBytes 2)
  | _ => none

/-- A lock of a PAMT entry of `[lo, hi)` is held (R49, R490: the PAMT region is taken exclusively). -/
def pamtRegionHeld (l : Locks) (lo hi : Nat) : Bool :=
  l.any fun e => e.1.pamtPage.any fun r => overlaps r.1 r.2 lo (hi - lo)

/-- R490. The PAMT region of a call is the entries that it initialises, so that pages of ready blocks stay usable
(corner case (d)); the operand id of a busy region is the TDMR's (log entry 67). -/
def sysTdmrInit (s : State) : Fn State := do
  let a := (s.hreg .rcx).toNat
  req (isAligned a (pageBytes 2) && decide (a < 2 ^ s.plat.addrBits)) (bad Status.operandInvalid Operand.rcx)
  let i ← getOr (s.tdmrs.findIdx? fun t => t.base == a) (bad Status.operandInvalid Operand.rcx)
  let t ← getOr s.tdmrs[i]? (bad Status.operandInvalid Operand.rcx)
  let _ ← lockOp s.locks (.tdmr i) .exclusive Operand.tdmr
  req (t.next != t.base + t.size) (bad Status.tdmrAlreadyInitialized 0)
  let hi := t.nextAfter s.plat.tdmrInitChunk
  req (!pamtRegionHeld s.locks t.next hi) (bad Status.operandBusy Operand.tdmr)
  let s1 := initPamt s t t.next hi
  pure (hostReturn { s1 with tdmrs := s1.tdmrs.modify i fun t => { t with next := hi } } Status.success 0
    [(.rdx, w64 (pageBase hi 2))])

/-- TDH.SYS.TDMR.INIT (R490). -/
def execTdhSysTdmrInit (s : State) : Outcome := hostCall false (fun s => withOuts [(.rdx, 0)] (sysTdmrInit s)) s

end Sys2Proof.Machine
end

