-- ==== Sys2Proof/Machine/Cpuid.lean ====
section
/-! DEFINITION. CPUID virtualisation: the table `CpuidRow`, the values TDH.MNG.INIT stores in TDCS.CPUID_VALUES, and the
value a VCPU sees (46_msr_cpuid_tables.md rules R670 to R690, 45_cpu_virt.md rule R600). -/

namespace Sys2Proof.Machine

/-- What the host configured that a field depends on (R670). -/
inductive CpuidCond where
  | xfam (b : Nat)
  | perfmon
  | pks
  | kl
  deriving DecidableEq, Repr

/-- One register of a row: the bits that are fixed 1, native, as configured by CPUID_CONFIG, the same if native, and
native under a condition (R670). -/
structure CpuidReg where
  one : BitVec 32
  native : BitVec 32
  config : BitVec 32
  configNative : BitVec 32
  cond : List (CpuidCond × BitVec 32)
  deriving DecidableEq, Repr

/-- One row of Table 18.4; `sub = none` is a leaf printed without sub-leaves. -/
structure CpuidRow where
  leaf : Nat
  sub : Option Nat
  eax : CpuidReg
  ebx : CpuidReg
  ecx : CpuidReg
  edx : CpuidReg
  deriving DecidableEq, Repr

/-- A register every bit of which is fixed 0. -/
def CpuidReg.zero : CpuidReg := ⟨0, 0, 0, 0, []⟩

/-- A register that is native under one condition. -/
def CpuidReg.when (c : CpuidCond) : CpuidReg := ⟨0, 0, 0, 0, [(c, 0xFFFFFFFF)]⟩

/-- A row every bit of which is fixed 0. -/
def CpuidRow.zero (leaf : Nat) (sub : Option Nat) : CpuidRow :=
  ⟨leaf, sub, .zero, .zero, .zero, .zero⟩

/-- A row that is native under one condition. -/
def CpuidRow.when (leaf : Nat) (sub : Option Nat) (c : CpuidCond) : CpuidRow :=
  ⟨leaf, sub, .when c, .when c, .when c, .when c⟩

/-- Rows of R671 to R674. -/
def cpuidRows1 : List CpuidRow :=
  [⟨0, none, ⟨0x21, 0, 0, 0, []⟩,
    ⟨0, 0xFFFFFFFF, 0, 0, []⟩,
    ⟨0, 0xFFFFFFFF, 0, 0, []⟩,
    ⟨0, 0xFFFFFFFF, 0, 0, []⟩⟩,
   ⟨0x1, none, .zero,
    ⟨0x800, 0xFF, 0x00FF0000, 0, []⟩,
    ⟨0xC620A000, 0x1DA0E17, 0, 0x44180, [(.xfam 2, 0x30001000)]⟩,
    ⟨0x2852E0, 0xF87A91F, 0, 0xB0400000, []⟩⟩,
   .zero 0x3 none,
   ⟨0x4, some 0, ⟨0, 0, 0xFFFFFFFF, 0, []⟩,
    ⟨0, 0xFFF, 0xFFFFF000, 0, []⟩,
    ⟨0, 0, 0xFFFFFFFF, 0, []⟩,
    ⟨0, 0, 0xFFFFFFFF, 0, []⟩⟩,
   ⟨0x4, some 1, ⟨0, 0, 0xFFFFFFFF, 0, []⟩,
    ⟨0, 0xFFF, 0xFFFFF000, 0, []⟩,
    ⟨0, 0, 0xFFFFFFFF, 0, []⟩,
    ⟨0, 0, 0xFFFFFFFF, 0, []⟩⟩,
   ⟨0x4, some 2, ⟨0, 0, 0xFFFFFFFF, 0, []⟩,
    ⟨0, 0xFFF, 0xFFFFF000, 0, []⟩,
    ⟨0, 0, 0xFFFFFFFF, 0, []⟩,
    ⟨0, 0, 0xFFFFFFFF, 0, []⟩⟩,
   ⟨0x4, some 3, ⟨0, 0, 0xFFFFFFFF, 0, []⟩,
    ⟨0, 0xFFF, 0xFFFFF000, 0, []⟩,
    ⟨0, 0, 0xFFFFFFFF, 0, []⟩,
    ⟨0, 0, 0xFFFFFFFF, 0, []⟩⟩,
   .zero 0x4 (some 4)]

/-- Rows of R675 to R679. EDX bit 30 of (7, 0) is written as the fixed 1 that R689 repairs it to; what a platform reads
there is its parameter `cpuid7Edx30`, applied by `cpuidCalculated` (N37, log entry 88). -/
def cpuidRows2 : List CpuidRow :=
  [⟨0x7, some 0, ⟨0x1, 0, 0, 0, []⟩,
    ⟨0x21940801, 0x4026D0, 0, 0x89108, [(.xfam 2, 0x20), (.xfam 5, 0xDC230000), (.xfam 8, 0x2000000)]⟩,
    ⟨0x11000000, 0xE410105, 0, 0x2020, [(.xfam 5, 0x5842), (.xfam 9, 0x8), (.xfam 11, 0x80), (.xfam 2, 0x600), (.kl, 0x800000), (.pks, 0x80000000)]⟩,
    ⟨0xE4000000, 0x1801C410, 0, 0x40000, [(.xfam 5, 0x80010C), (.xfam 14, 0x20), (.xfam 15, 0x80000), (.xfam 11, 0x100000), (.xfam 17, 0x3400000)]⟩⟩,
   ⟨0x7, some 1, ⟨0, 0x1C00, 0, 0, [(.xfam 5, 0x30)]⟩,
    .zero,
    .zero,
    .zero⟩,
   .zero 0x8 none,
   .when 0xA none .perfmon,
   .zero 0xD (some 0),
   ⟨0xD, some 1, ⟨0xB, 0x4, 0, 0, [(.xfam 18, 0x10)]⟩,
    .zero,
    .zero,
    .zero⟩]

/-- Rows of R680 to R687. -/
def cpuidRows3 : List CpuidRow :=
  [.zero 0xE none,
   .zero 0x11 none,
   .zero 0x12 none,
   .zero 0x13 none,
   .when 0x14 (some 0) (.xfam 8),
   .when 0x14 (some 1) (.xfam 8),
   ⟨0x15, none, ⟨0x1, 0, 0, 0, []⟩,
    .zero,
    ⟨0x17D7840, 0, 0, 0, []⟩,
    .zero⟩,
   ⟨0x19, none, ⟨0, 0, 0, 0, [(.kl, 0xFFFFFFFF)]⟩,
    ⟨0, 0, 0, 0, [(.kl, 0xFFFFFFFF)]⟩,
    ⟨0, 0, 0, 0, [(.kl, 1)]⟩,
    .zero⟩,
   .when 0x1C none (.xfam 15),
   .when 0x1D (some 0) (.xfam 17),
   .when 0x1D (some 1) (.xfam 17),
   .when 0x1E none (.xfam 17),
   .zero 0x20 none,
   ⟨0x21, some 0, .zero,
    ⟨0x65746E49, 0, 0, 0, []⟩,
    ⟨0x20202020, 0, 0, 0, []⟩,
    ⟨0x5844546C, 0, 0, 0, []⟩⟩,
   ⟨0x80000000, none, ⟨0, 0xFFFFFFFF, 0, 0, []⟩,
    .zero,
    .zero,
    .zero⟩,
   ⟨0x80000001, none, .zero,
    .zero,
    ⟨0, 0x121, 0, 0, []⟩,
    ⟨0x2C100000, 0x800, 0, 0, []⟩⟩,
   ⟨0x80000008, none, ⟨0x34, 0xFF00, 0, 0, []⟩,
    ⟨0x200, 0, 0, 0, []⟩,
    .zero,
    .zero⟩]

/-- Rows (0xD, 2) to (0xD, 0x12) of R679: component `n`, native when XFAM[n] is 1. -/
def cpuidComponentRows : List CpuidRow := (List.range' 2 17).map fun n => .when 0xD (some n) (.xfam n)

/-- The table, in the order of TDCS.CPUID_VALUES (R690, D50). -/
def cpuidTable : List CpuidRow := cpuidRows1 ++ cpuidRows2 ++ cpuidComponentRows ++ cpuidRows3

/-- A row of a leaf and sub-leaf; the sub-leaf does not matter for a leaf printed without. -/
def CpuidRow.covers (r : CpuidRow) (leaf sub : Nat) : Bool := r.leaf == leaf && (r.sub == none || r.sub == some sub)

/-- `CpuidRow(leaf, subleaf)`: the index of its entry. -/
def cpuidIndex (leaf sub : Nat) : Option Nat := cpuidTable.findIdx? fun r => r.covers leaf sub

/-- Does the TD's configuration meet a condition. -/
def CpuidCond.holds (attributes xfam : Word) : CpuidCond → Bool
  | .xfam b => bit xfam b
  | .perfmon => bit attributes 63
  | .pks => bit attributes 30
  | .kl => bit attributes 31

/-- The bits that are native under the conditions that hold. -/
def condMask (attributes xfam : Word) : List (CpuidCond × BitVec 32) → BitVec 32
  | [] => 0
  | (c, m) :: rest => (if c.holds attributes xfam then m else 0) ||| condMask attributes xfam rest

/-- Virt(f) for every field of a register (R670). -/
def CpuidReg.value (r : CpuidReg) (attributes xfam : Word) (native config : BitVec 32) : BitVec 32 :=
  r.one ||| (native &&& r.native) ||| (config &&& r.config) ||| (native &&& config &&& r.configNative)
    ||| (native &&& condMask attributes xfam r.cond)

/-- The entry of a configuration list that configures a row. -/
def CpuidRow.config (r : CpuidRow) : List (CpuidConfig × CpuidRegs) → CpuidRegs
  | [] => ⟨0, 0, 0, 0⟩
  | (c, v) :: rest => if c.leaf = r.leaf ∧ (c.sub = none ∨ r.sub = none ∨ c.sub = r.sub) then v else r.config rest

/-- The native CPUID values of a row. -/
def CpuidRow.nativeRegs (r : CpuidRow) : CpuidRegs :=
  let n := Config.nativeCpuid r.leaf (r.sub.getD 0)
  ⟨n.1, n.2.1, n.2.2.1, n.2.2.2⟩

/-- XsaveAreaSize(x, standard): the largest end of a component in the standard format, at least 576 (R679). -/
def xsaveStandardSize (x : Word) : BitVec 32 :=
  (List.range' 2 17).foldl
    (fun m i =>
      let n := Config.nativeCpuid 0xD i
      if bit x i && decide (m < n.1 + n.2.1) then n.1 + n.2.1 else m)
    576

/-- XsaveAreaSize(x, compacted) (R679, R205). -/
def xsaveCompactedSize (x : Word) : BitVec 32 := BitVec.ofNat 32 (8 * Config.xsaveUnits x)

/-- The smallest stepping of all packages (R672). -/
def Platform.minStepping (p : Platform) : Nat :=
  match p.steppings with
  | [] => 0
  | c :: cs => cs.foldl (fun m c => min m c.stepping) c.stepping

/-- The calculated fields of a row: CPUID(1).EAX[3:0], the other fields of EAX being native, CPUID(7,0).EDX[30] from its
parameter (log entry 88), CPUID(0xD,0), CPUID(0xD,1).ECX and CPUID(0x15).EBX; the fields that depend on the VCPU are stored
as 0 (R672, R679, R682, R689, R690). -/
def cpuidCalculated (p : Platform) (xfam : Word) (tscFrequency : Nat) (r : CpuidRow) (v : CpuidRegs) : CpuidRegs :=
  if r.leaf = 1 then { v with eax := (r.nativeRegs.eax &&& 0x0FFF3FF0) ||| BitVec.ofNat 32 (p.minStepping % 16) }
  else if r.leaf = 7 ∧ r.sub = some 0 then
    { v with edx := (v.edx &&& 0xBFFFFFFF) ||| (if p.cpuid7Edx30 then 0x40000000 else 0) }
  else if r.leaf = 0xD ∧ r.sub = some 0 then
    { v with eax := BitVec.ofNat 32 (xfam &&& 0x602E7).toNat ||| 3, ecx := xsaveStandardSize (xfam &&& 0x602FF) }
  else if r.leaf = 0xD ∧ r.sub = some 1 then { v with ecx := BitVec.ofNat 32 (xfam &&& 0xD900).toNat }
  else if r.leaf = 0x15 then { v with ebx := BitVec.ofNat 32 tscFrequency }
  else v

/-- The stored value of a row (R670). -/
def cpuidStored (p : Platform) (attributes xfam : Word) (tscFrequency : Nat)
    (config : List (CpuidConfig × CpuidRegs)) (r : CpuidRow) : CpuidRegs :=
  let n := r.nativeRegs
  let c := r.config config
  cpuidCalculated p xfam tscFrequency r
    ⟨r.eax.value attributes xfam n.eax c.eax, r.ebx.value attributes xfam n.ebx c.ebx,
     r.ecx.value attributes xfam n.ecx c.ecx, r.edx.value attributes xfam n.edx c.edx⟩

/-- The fields that depend on the executing VCPU: VCPU_INDEX, CR4.OSXSAVE, CR4.PKE, XCR0 and IA32_XSS (R670). -/
def cpuidPatch (v : Tdvps) (leaf sub : Nat) (r : CpuidRegs) : CpuidRegs :=
  if leaf = 1 then
    { r with ebx := r.ebx ||| BitVec.ofNat 32 (v.vcpuIndex % 256 * 2 ^ 24)
             ecx := r.ecx ||| (if bit (v.vm Vmcs.cr4) 18 then 0x08000000 else 0) }
  else if leaf = 7 ∧ sub = 0 then { r with ecx := r.ecx ||| (if bit (v.vm Vmcs.cr4) 22 then 0x10 else 0) }
  else if leaf = 0xD ∧ sub = 0 then { r with ebx := xsaveStandardSize v.xcr0 }
  else if leaf = 0xD ∧ sub = 1 then { r with ebx := xsaveCompactedSize (v.xcr0 ||| regGet v.msrs 0xDA0) }
  else r

/-- What the guest's CPUID does (R600, R690): the values, or #VE. The sub-leaves of leaf 0x21 that the table does not list
return zeros (R575) or give #VE (R690), as the platform's parameter says (log entry 71). -/
def cpuidVirtual (p : Platform) (v : Tdvps) (c : Tdcs) (leaf sub : Nat) : Option CpuidRegs :=
  match cpuidIndex leaf sub with
  | some i => some (cpuidPatch v leaf sub (c.cpuidAt i))
  | none =>
    if leaf = 0x21 ∧ p.cpuid21OthersZero = true then some ⟨0, 0, 0, 0⟩
    else if leaf ≤ 0x21 ∨ (0x80000000 ≤ leaf ∧ leaf ≤ (Config.nativeCpuid 0x80000000 0).1.toNat) then none
    else some ⟨0, 0, 0, 0⟩

end Sys2Proof.Machine
end

