-- ==== Sys2Proof/Machine/Msr.lean ====
section
/-! DEFINITION. MSR virtualisation: the table `MsrRow` and the MSR bitmaps (46_msr_cpuid_tables.md rules R660 to
R666). -/

namespace Sys2Proof.Machine

/-- The conditions of Table 18.2 (R660). -/
inductive MsrCond where
  | noPerfmon
  | noXfam (b : Nat)
  | noCet
  | noPks
  | noWaitpkg
  | noPconfig
  | noDca
  | noTme
  | noXfd
  deriving DecidableEq, Repr

/-- What the table says of one direction of an MSR (R660). -/
inductive MsrAct where
  | native
  | gp
  | ve
  | gpIf (c : MsrCond)
  | gpOrVe (c : MsrCond)
  | special
  deriving DecidableEq, Repr

/-- One row: first and last index, RDMSR, WRMSR. -/
structure MsrRow where
  first : Nat
  last : Nat
  rd : MsrAct
  wr : MsrAct
  deriving DecidableEq, Repr

/-- R661, first half. -/
def msrRows1 : List MsrRow :=
  [⟨0x10, 0x10, .native, .ve⟩,
   ⟨0x48, 0x49, .native, .native⟩,
   ⟨0x87, 0x87, .gpOrVe .noPconfig, .gpOrVe .noPconfig⟩,
   ⟨0x8C, 0x8F, .gp, .gp⟩,
   ⟨0x98, 0x9B, .gp, .gp⟩,
   ⟨0x9E, 0x9E, .gp, .gp⟩,
   ⟨0xC1, 0xC8, .gpIf .noPerfmon, .gpIf .noPerfmon⟩,
   ⟨0xE1, 0xE1, .gpIf .noWaitpkg, .gpIf .noWaitpkg⟩,
   ⟨0x10A, 0x10A, .special, .native⟩,
   ⟨0x10B, 0x10B, .native, .native⟩,
   ⟨0x122, 0x122, .gp, .gp⟩,
   ⟨0x174, 0x176, .native, .native⟩,
   ⟨0x186, 0x18D, .gpIf .noPerfmon, .gpIf .noPerfmon⟩,
   ⟨0x1A0, 0x1A0, .special, .ve⟩,
   ⟨0x1A6, 0x1A7, .gpIf .noPerfmon, .gpIf .noPerfmon⟩,
   ⟨0x1C4, 0x1C5, .gpIf .noXfd, .gpIf .noXfd⟩,
   ⟨0x1D9, 0x1D9, .special, .special⟩,
   ⟨0x1F8, 0x1FA, .gpOrVe .noDca, .gpOrVe .noDca⟩,
   ⟨0x276, 0x276, .gp, .gp⟩,
   ⟨0x277, 0x277, .native, .native⟩,
   ⟨0x309, 0x30C, .gpIf .noPerfmon, .gpIf .noPerfmon⟩,
   ⟨0x329, 0x329, .gpIf .noPerfmon, .gpIf .noPerfmon⟩,
   ⟨0x345, 0x345, .special, .gpIf .noPerfmon⟩,
   ⟨0x38D, 0x392, .gpIf .noPerfmon, .gpIf .noPerfmon⟩,
   ⟨0x3F1, 0x3F2, .gpIf .noPerfmon, .gpIf .noPerfmon⟩,
   ⟨0x3F6, 0x3F7, .gpIf .noPerfmon, .gpIf .noPerfmon⟩,
   ⟨0x480, 0x492, .gp, .gp⟩,
   ⟨0x4C1, 0x4C8, .gpIf .noPerfmon, .gpIf .noPerfmon⟩,
   ⟨0x500, 0x500, .gp, .gp⟩]

/-- R661, second half. -/
def msrRows2 : List MsrRow :=
  [⟨0x560, 0x561, .gpIf (.noXfam 8), .gpIf (.noXfam 8)⟩,
   ⟨0x570, 0x572, .gpIf (.noXfam 8), .gpIf (.noXfam 8)⟩,
   ⟨0x580, 0x587, .gpIf (.noXfam 8), .gpIf (.noXfam 8)⟩,
   ⟨0x600, 0x600, .native, .native⟩,
   ⟨0x6A0, 0x6A0, .gpIf .noCet, .gpIf .noCet⟩,
   ⟨0x6A2, 0x6A2, .gpIf .noCet, .gpIf .noCet⟩,
   ⟨0x6A4, 0x6A8, .gpIf .noCet, .gpIf .noCet⟩,
   ⟨0x6E1, 0x6E1, .gpIf .noPks, .gpIf .noPks⟩,
   ⟨0x800, 0x801, .gp, .gp⟩,
   ⟨0x804, 0x807, .gp, .gp⟩,
   ⟨0x808, 0x80C, .native, .native⟩,
   ⟨0x80E, 0x80E, .native, .native⟩,
   ⟨0x810, 0x827, .native, .native⟩,
   ⟨0x829, 0x82E, .gp, .gp⟩,
   ⟨0x831, 0x831, .gp, .gp⟩,
   ⟨0x83F, 0x83F, .native, .native⟩,
   ⟨0x840, 0x8FF, .gp, .gp⟩,
   ⟨0x981, 0x984, .gpOrVe .noTme, .gpOrVe .noTme⟩,
   ⟨0x985, 0x98A, .gpIf (.noXfam 14), .gpIf (.noXfam 14)⟩,
   ⟨0xC80, 0xC80, .native, .gp⟩,
   ⟨0xD90, 0xD90, .gp, .gp⟩,
   ⟨0xD93, 0xD93, .gp, .gp⟩,
   ⟨0xDA0, 0xDA0, .native, .special⟩,
   ⟨0x1200, 0x12FF, .gpIf (.noXfam 15), .gpIf (.noXfam 15)⟩,
   ⟨0x14CE, 0x14CF, .gpIf (.noXfam 15), .gpIf (.noXfam 15)⟩,
   ⟨0x1500, 0x16FF, .gpIf (.noXfam 15), .gpIf (.noXfam 15)⟩,
   ⟨0xC0000080, 0xC0000080, .native, .ve⟩,
   ⟨0xC0000081, 0xC0000082, .native, .native⟩,
   ⟨0xC0000084, 0xC0000084, .native, .native⟩,
   ⟨0xC0000100, 0xC0000103, .native, .native⟩]

/-- Table 18.2 as repaired (R661, R663). -/
def msrTable : List MsrRow := msrRows1 ++ msrRows2

/-- The row of an index that is not listed (R660). -/
def MsrRow.unlisted : MsrRow := ⟨0, 0, .ve, .ve⟩

/-- `MsrRow(idx)` (R661). -/
def msrRow (idx : Nat) : MsrRow :=
  (msrTable.find? fun r => decide (r.first ≤ idx) && decide (idx ≤ r.last)).getD .unlisted

/-- Does the condition hold for a TD (R660). -/
def MsrCond.holds (c : Tdcs) : MsrCond → Bool
  | .noPerfmon => !c.perfmon
  | .noXfam b => !bit c.xfam b
  | .noCet => !(bit c.xfam 11 || bit c.xfam 12)
  | .noPks => !c.pks
  | .noWaitpkg => !c.waitpkg
  | .noPconfig => !c.pconfig
  | .noDca => !(c.cpuidAt 1).ecx.getLsbD 18
  | .noTme => !(c.cpuidAt 8).ecx.getLsbD 13
  | .noXfd => !c.xfd

/-- Does the CPU perform the access itself (R662). -/
def MsrAct.noExit (c : Tdcs) : MsrAct → Bool
  | .native => true
  | .gpIf k => !k.holds c
  | _ => false

/-- The bit number of an index in a 16384-bit bitmap pair, if the bitmaps cover it (R133). -/
def bitmapIndex (idx : Nat) : Option Nat :=
  if idx < 0x2000 then some idx
  else if 0xC0000000 ≤ idx ∧ idx < 0xC0002000 then some (idx - 0xC0000000 + 0x2000)
  else none

/-- Clear one exit bit: `dir` is 0 for RDMSR, 1 for WRMSR. -/
def clearExit (b : RegFile) (dir idx : Nat) : RegFile :=
  match bitmapIndex idx with
  | some k => regSet b (256 * dir + k / 64) (regGet b (256 * dir + k / 64) &&& ~~~bitAt true (k % 64))
  | none => b

/-- Clear the exit bits of `n` indices from `lo` on. -/
def clearExits (b : RegFile) (dir lo : Nat) : Nat → RegFile
  | 0 => b
  | n + 1 => clearExits (clearExit b dir (lo + n)) dir lo n

/-- The bitmaps after the rows of a list. -/
def applyMsrRows (c : Tdcs) (b : RegFile) : List MsrRow → RegFile
  | [] => b
  | r :: rs =>
    let n := r.last + 1 - r.first
    let b1 := if r.rd.noExit c then clearExits b 0 r.first n else b
    applyMsrRows c (if r.wr.noExit c then clearExits b1 1 r.first n else b1) rs

/-- Every access exits. -/
def allExits : RegFile := (List.range 512).map fun i => (i, 0xFFFFFFFFFFFFFFFF)

/-- TDCS.MSR_BITMAPS as TDH.MNG.INIT builds them (R662). -/
def msrBitmaps (c : Tdcs) : RegFile := applyMsrRows c allExits msrTable

/-- The exit bit of an index: an index outside both ranges always exits (R662). -/
def msrExits (c : Tdcs) (dir idx : Nat) : Bool :=
  match bitmapIndex idx with
  | some k => bit (regGet c.msrBitmaps (256 * dir + k / 64)) (k % 64)
  | none => true

end Sys2Proof.Machine
end

