-- ==== Sys2Proof/Machine/Mng.lean ====
section
/-! DEFINITION. The host-side TD-management and measurement functions TDH.MNG.* and TDH.MR.*, the field functions apart
(41_seamcall_mng_mr.md rules R450 to R461; TD_PARAMS of 31_data_types.md rule R386). -/

namespace Sys2Proof.Machine

/-- CheckHpa of a TDR operand in RCX and its exclusive lock. -/
def lockTdr (s : State) : Fn (Locks × Nat) := do
  let td ← checkHpa s Operand.rcx (s.hreg .rcx) 4096
  let l ← lockPage4k s.locks td .exclusive .shared Operand.rcx
  pure (l, td)

/-- CheckPamt with PT_TDR, then the TDR. -/
def typedTdr (s : State) (td id : Nat) : Fn Tdr := do
  req (pageIs s td 0 .tdr) (bad Status.pageMetadataIncorrect id)
  getTdr s td

/-! ## TDH.MNG.ADDCX (R450) -/

/-- A TDR with one more TDCX page (R450 steps 8 and 9, and the child count). -/
def Tdr.addTdcx (t : Tdr) (a : Nat) : Tdr :=
  { t with tdcxPa := t.tdcxPa ++ [a], numTdcx := t.numTdcx + 1, chldcnt := t.chldcnt + 1 }

/-- R450. -/
def mngAddcx (s : State) : Fn State := do
  let a ← checkHpa s Operand.rcx (s.hreg .rcx) 4096
  let l ← lockPage4k s.locks a .exclusive .shared Operand.rcx
  let td ← checkHpa s Operand.rdx (s.hreg .rdx) 4096
  let _ ← lockPage4k l td .exclusive .shared Operand.rdx
  let t ← typedTdr s td Operand.rdx
  req (!t.fatal) (bad Status.tdFatal 0)
  req (!t.init) (bad Status.tdInitialized 0)
  req (decide (t.numTdcx < s.plat.tdcxRequired)) (bad Status.tdcxNumIncorrect 0)
  req (t.lifecycle == .keysConfigured) (bad Status.tdKeysNotConfigured 0)
  req (pageFree s a 0) (bad Status.pageMetadataIncorrect Operand.rcx)
  let s1 := (zeroDirect s t.hkid a 4096).modTdr td fun t => t.addTdcx a
  pure (hostReturn (s1.assignPage a 0 .tdcx td) Status.success 0 [])

/-- TDH.MNG.ADDCX (R450). -/
def execTdhMngAddcx (s : State) : Outcome := hostCall false mngAddcx s

/-! ## TDH.MNG.CREATE (R451) -/

/-- The TDR of a TD just created (R121 to R123). -/
def Tdr.created (hkid : Nat) : Tdr :=
  { init := false, fatal := false, numTdcx := 0, tdcxPa := [], chldcnt := 0, lifecycle := .hkidAssigned, hkid := hkid,
    pkgConfigBitmap := 0 }

/-- R451. -/
def mngCreate (s : State) : Fn State := do
  let (l, td) ← lockTdr s
  req (bitsOf (s.hreg .rdx) 63 16 == 0) (bad Status.operandInvalid Operand.rdx)
  let _ ← lockOp l .kot .exclusive Operand.kot
  req (pageFree s td 0) (bad Status.pageMetadataIncorrect Operand.rcx)
  let h := bitsOf (s.hreg .rdx) 15 0
  req (inPrivateRange s.plat h) (bad Status.operandInvalid Operand.rdx)
  req ((kotAt s h).state == .free) (bad Status.hkidNotFree 0)
  let s1 := zeroDirect s s.globalHkid td 4096
  let s2 := { s1 with tdrs := tblSet s1.tdrs td (Tdr.created h) }
  let s3 := s2.setKot h { kotAt s h with state := .assigned }
  pure (hostReturn (s3.assignPage td 0 .tdr 0) Status.success 0 [])

/-- TDH.MNG.CREATE (R451). -/
def execTdhMngCreate (s : State) : Outcome := hostCall false mngCreate s

/-! ## TDH.MNG.INIT (R452) -/

/-- TD_PARAMS (R386). -/
structure TdParams where
  attributes : Word
  xfam : Word
  maxVcpus : Nat
  eptpControls : Word
  execControls : Word
  tscFrequency : Nat
  mrconfigid : List Byte
  mrowner : List Byte
  mrownerconfig : List Byte
  cpuid : List CpuidRegs
  reservedZero : Bool
  deriving DecidableEq, Repr

/-- A CPUID_VALUES structure of 16 bytes (R385). -/
def CpuidRegs.ofBytes (bs : List Byte) : CpuidRegs :=
  ⟨BitVec.ofNat 32 (fieldAt bs 0 4), BitVec.ofNat 32 (fieldAt bs 4 4), BitVec.ofNat 32 (fieldAt bs 8 4),
   BitVec.ofNat 32 (fieldAt bs 12 4)⟩

/-- All bytes of `[off, off+n)` are 0. -/
def zeroBytes (bs : List Byte) (off n : Nat) : Bool := (bytesAt bs off n).all fun b => b == 0

/-- The TD_PARAMS in 1024 bytes, with `n` CPUID_CONFIG entries (R386). -/
def TdParams.ofBytes (bs : List Byte) (n : Nat) : TdParams :=
  { attributes := w64 (fieldAt bs 0 8), xfam := w64 (fieldAt bs 8 8), maxVcpus := fieldAt bs 16 2,
    eptpControls := w64 (fieldAt bs 24 8), execControls := w64 (fieldAt bs 32 8), tscFrequency := fieldAt bs 40 2,
    mrconfigid := bytesAt bs 80 48, mrowner := bytesAt bs 128 48, mrownerconfig := bytesAt bs 176 48,
    cpuid := (List.range n).map fun i => CpuidRegs.ofBytes (bytesAt bs (256 + 16 * i) 16),
    reservedZero := zeroBytes bs 18 6 && zeroBytes bs 42 38 && zeroBytes bs 224 32 &&
      zeroBytes bs (256 + 16 * n) (768 - 16 * n) }

/-- The bits of ATTRIBUTES that have a meaning and may be 1 (R384). -/
def attributesLegalBits : Word := 0x8000000050000001

/-- ATTRIBUTES complies with the fixed bits and the layout (R452, R384). -/
def attributesLegal (p : Platform) (a : Word) : Bool :=
  (a &&& ~~~attributesLegalBits) == 0 && (a &&& ~~~p.attributesFixed0) == 0 && (p.attributesFixed1 &&& ~~~a) == 0

/-- A group of bits all 0 or all 1. -/
def allOrNone (x m : Word) : Bool := (x &&& m) == 0 || (x &&& m) == m

/-- XfamLegal (R590). -/
def xfamLegal (p : Platform) (x : Word) : Bool :=
  (x &&& 3) == 3 && (x &&& 0x18) == 0 && allOrNone x 0xE0 && ((x &&& 0xE0) == 0 || (x &&& 4) != 0)
    && (x &&& 0x400) == 0 && allOrNone x 0x1800 && (x &&& 0x2000) == 0 && (x &&& 0x10000) == 0
    && allOrNone x 0x60000 && (x &&& 0xFFFFFFFFFFF80000) == 0 && (x &&& ~~~p.nativeXfam) == 0
    && (x &&& ~~~p.xfamFixed0) == 0 && (p.xfamFixed1 &&& ~~~x) == 0

/-- EPTP_CONTROLS: write-back, four or five levels (R452). -/
def eptpControlsLegal (w : Word) : Bool := w == 0x1E || w == 0x26

/-- EXEC_CONTROLS: GPAW only, and only with five levels (R452, D23). -/
def execControlsLegal (w eptp : Word) : Bool := w == 0 || (w == 1 && eptp == 0x26)

/-- No bit is set outside the mask of a configurable leaf (R452 step 8). -/
def cpuidWithin (m v : CpuidRegs) : Bool :=
  (v.eax &&& ~~~m.eax) == 0 && (v.ebx &&& ~~~m.ebx) == 0 && (v.ecx &&& ~~~m.ecx) == 0 && (v.edx &&& ~~~m.edx) == 0

/-- The CPUID_CONFIG checks; a failure returns the leaf and sub-leaf in RCX. -/
def checkCpuidConfig : List (CpuidConfig × CpuidRegs) → Fn Unit
  | [] => .ok ()
  | (c, v) :: rest => do
    req (cpuidWithin c.mask v)
      (.status Status.operandInvalid Operand.cpuidConfig [(.rcx, w64 (c.sub.getD 0xFFFFFFFF * 2 ^ 32 + c.leaf))])
    checkCpuidConfig rest

/-- The parameter checks of step 8 (R452). -/
def checkParams (s : State) (p : TdParams) : Fn Unit := do
  req (attributesLegal s.plat p.attributes) (bad Status.operandInvalid Operand.attributes)
  req (xfamLegal s.plat p.xfam) (bad Status.operandInvalid Operand.xfam)
  req (p.maxVcpus != 0) (bad Status.operandInvalid Operand.maxVcpus)
  req (eptpControlsLegal p.eptpControls) (bad Status.operandInvalid Operand.eptpControls)
  req (execControlsLegal p.execControls p.eptpControls) (bad Status.operandInvalid Operand.execControls)
  req (decide (4 ≤ p.tscFrequency) && decide (p.tscFrequency ≤ 400)) (bad Status.operandInvalid Operand.tscFrequency)
  req p.reservedZero (bad Status.operandInvalid Operand.rdx)
  checkCpuidConfig ((s.plat.cpuidConfig.map CpuidConfig.effective).zip p.cpuid)
  req (!bit s.lp.miscEnable 22) (bad Status.bootNt4Set 0)

/-- TSC_MULTIPLIER (R630). -/
def tscMultiplierFor (p : Platform) (frequency : Nat) : Word := w64 (frequency * 25000000 * 2 ^ 48 / p.nativeTscHz)

/-- A native TSC value scaled (R630). -/
def scaledTsc (tsc multiplier : Word) : Word := w64 (tsc.toNat * multiplier.toNat / 2 ^ 48)

/-- VirtTsc (R630). -/
def virtTsc (c : Tdcs) (tsc : Word) : Word := scaledTsc tsc c.tscMultiplier + c.tscOffset

/-- XBUFF_OFFSETS: one element per component of XFAM, in bytes (R130, R205). -/
def xbuffOffsetsFor (xfam : Word) : RegFile :=
  regSetAll [] ((List.range 64).map fun i => (i, if bit xfam i then w64 (8 * Config.xsaveOffsetUnits xfam i) else 0))

/-- The entries of CPUID_VALUES that a module build has beyond the rows of R690: which leaf they stand for is not given (R130,
log entry 2). -/
def cpuidSpares (n : Nat) (attributes xfam : Word) : List CpuidRegs :=
  (List.range' cpuidTable.length (n - cpuidTable.length)).map fun j =>
    let e := Config.cpuidSpare j attributes xfam
    ⟨e.1, e.2.1, e.2.2.1, e.2.2.2⟩

/-- The TDCS that TDH.MNG.INIT builds, the MSR bitmaps apart (R452 steps 6 to 11). `root` is the page of SEPT_ROOT. -/
def Tdcs.created (s : State) (p : TdParams) (root : Nat) : Tdcs :=
  let m := tscMultiplierFor s.plat p.tscFrequency
  { finalized := false, numVcpus := 0, numAssocVcpus := 0, attributes := p.attributes, xfam := p.xfam,
    maxVcpus := p.maxVcpus, gpaw := bit p.execControls 0, eptp := p.eptpControls ||| w64 root, tscOffset := 0 - scaledTsc s.tsc m,
    tscMultiplier := m, tscFrequency := p.tscFrequency, notifyEnables := 0,
    cpuidValues := cpuidTable.map
      (cpuidStored s.plat p.attributes p.xfam p.tscFrequency (s.plat.cpuidConfig.zip p.cpuid)) ++
      cpuidSpares s.plat.numCpuidValues p.attributes p.xfam,
    xbuffOffsets := xbuffOffsetsFor p.xfam, tdEpoch := 1, refcount0 := 0, refcount1 := 0,
    mrtd := List.replicate 48 0, mrconfigid := p.mrconfigid, mrowner := p.mrowner, mrownerconfig := p.mrownerconfig,
    rtmr := List.replicate 4 (List.replicate 48 0), mrtdContext := ShaCtx.init, msrBitmaps := [] }

/-- The TDCX page that holds SEPT_ROOT, by its index (log entry 21). -/
def Tdr.rootPage (t : Tdr) (p : Platform) : Nat := t.tdcxPa.getD p.septRootTdcx 0

/-- R452; IA32_TSC_ADJUST is compared before the TSC is read (R630; the place is the model's, log entry 66). -/
def mngInit (s : State) : Fn State := do
  let (_, td) ← lockTdr s
  let a ← checkShared s Operand.rdx (s.hreg .rdx) 1024
  let t ← typedTdr s td Operand.rcx
  req (!t.fatal) (bad Status.tdFatal 0)
  req (!t.init) (bad Status.tdInitialized 0)
  req (t.lifecycle == .keysConfigured) (bad Status.tdKeysNotConfigured 0)
  req (t.numTdcx == s.plat.tdcxRequired) (bad Status.tdcxNumIncorrect 0)
  let bytes ← readShared s a 1024
  let p := TdParams.ofBytes bytes s.plat.cpuidConfig.length
  checkParams s p
  req (s.lp.tscAdjust == s.sampledTscAdjust) (bad Status.inconsistentMsr 0x3B)
  let root := t.rootPage s.plat
  let c := Tdcs.created s p root
  let s1 := (s.clearSeptPage root).modTdr td fun t => { t with init := true }
  pure (hostReturn { s1 with tdcss := tblSet s1.tdcss td { c with msrBitmaps := msrBitmaps c } }
    Status.success 0 [(.rcx, 0)])

/-- TDH.MNG.INIT (R452). -/
def execTdhMngInit (s : State) : Outcome := hostCall false (fun s => withOuts [(.rcx, 0)] (mngInit s)) s

/-! ## TDH.MNG.KEY.CONFIG, KEY.FREEID, KEY.RECLAIMID (R453 to R455) -/

/-- The TDR after a key has been configured on a package (R453 steps 5 and 6). -/
def Tdr.keyConfigured (t : Tdr) (p : Platform) (pkg : Nat) : Tdr :=
  let bm := t.pkgConfigBitmap ||| bitAt true pkg
  { t with pkgConfigBitmap := bm, lifecycle := if coversPackages p bm then .keysConfigured else t.lifecycle }

/-- R453. -/
def mngKeyConfig (s : State) : Fn State := do
  let (_, td) ← lockTdr s
  let t ← typedTdr s td Operand.rcx
  req (!t.fatal) (bad Status.tdFatal 0)
  req (t.lifecycle == .hkidAssigned) (bad Status.lifecycleStateIncorrect 0)
  req (!bit t.pkgConfigBitmap s.pkg) (bad Status.keyConfigured 0)
  let s1 ← configureKey s t.hkid t.pkgConfigBitmap (.td td)
  pure (hostReturn (s1.modTdr td fun t => t.keyConfigured s.plat s.pkg) Status.success 0 [])

/-- TDH.MNG.KEY.CONFIG (R453). -/
def execTdhMngKeyConfig (s : State) : Outcome := hostCall false mngKeyConfig s

/-- R454. -/
def mngKeyFreeid (s : State) : Fn State := do
  let (l, td) ← lockTdr s
  let _ ← lockOp l .kot .exclusive Operand.kot
  let t ← typedTdr s td Operand.rcx
  req (t.lifecycle == .blocked) (bad Status.lifecycleStateIncorrect 0)
  req ((kotAt s t.hkid).state == .flushed) (bad Status.lifecycleStateIncorrect 0)
  req ((kotAt s t.hkid).wbcache.isEmpty) (bad Status.wbcacheNotComplete 0)
  let s1 := s.setKot t.hkid { kotAt s t.hkid with state := .free }
  pure (hostReturn (s1.modTdr td fun t => { t with lifecycle := .teardown }) Status.success 0 [])

/-- TDH.MNG.KEY.FREEID (R454). -/
def execTdhMngKeyFreeid (s : State) : Outcome := hostCall false mngKeyFreeid s

/-- R455: nothing but the status. -/
def mngKeyReclaimid (s : State) : Fn State := pure (hostReturn s Status.success 0 [])

/-- TDH.MNG.KEY.RECLAIMID (R455). -/
def execTdhMngKeyReclaimid (s : State) : Outcome := hostCall false mngKeyReclaimid s

/-! ## TDH.MNG.VPFLUSHDONE (R457) -/

/-- Step 4 of R457: no VCPU of an initialised TD is associated with a logical processor. -/
def noVcpuAssociated (s : State) (td : Nat) (t : Tdr) : Fn Unit :=
  if t.init then do
    let c ← getTdcs s td t
    req (c.numAssocVcpus == 0) (bad Status.flushvpNotDone 0)
  else .ok ()

/-- R457. -/
def mngVpflushdone (s : State) : Fn State := do
  let (l, td) ← lockTdr s
  let _ ← lockOp l .kot .exclusive Operand.kot
  let t ← typedTdr s td Operand.rcx
  req (t.lifecycle == .hkidAssigned || t.lifecycle == .keysConfigured) (bad Status.lifecycleStateIncorrect 0)
  req ((kotAt s t.hkid).state == .assigned) (bad Status.lifecycleStateIncorrect 0)
  noVcpuAssociated s td t
  let s1 := s.setKot t.hkid ⟨.flushed, allScopes s.plat⟩
  pure (hostReturn (s1.modTdr td fun t => { t with lifecycle := .blocked }) Status.success 0 [])

/-- TDH.MNG.VPFLUSHDONE (R457). -/
def execTdhMngVpflushdone (s : State) : Outcome := hostCall false mngVpflushdone s

/-! ## TDH.MR.EXTEND and TDH.MR.FINALIZE (R460, R461) -/

/-- The first extension buffer of TDH.MR.EXTEND: "MR.EXTEND", then the GPA at byte 16. -/
def extendBlock (gpa : Nat) : List Byte :=
  padTo 16 [0x4D, 0x52, 0x2E, 0x45, 0x58, 0x54, 0x45, 0x4E, 0x44] ++ padTo 112 (leBytes 8 gpa)

/-- The MRTD context after a 256-byte chunk (R460 step 7). -/
def ShaCtx.extend (c : ShaCtx) (gpa : Nat) (chunk : List Byte) : ShaCtx :=
  ((c.update (extendBlock gpa)).update (chunk.take 128)).update (chunk.drop 128)

/-- R460. That the GPA is tested for being private (bits above 51 among them) after the TDR and before FINALIZED, where the rule
lists the test with the alignment, is a DESIGN CHOICE (log entry 90). -/
def mrExtend (s : State) : Fn State := do
  let gpa := (s.hreg .rcx).toNat
  req (isAligned gpa 256) (bad Status.operandInvalid Operand.rcx)
  let (l, td, t, c) ← openTd s Operand.rdx (s.hreg .rdx) .exclusive
  req (c.privateGpa gpa) (bad Status.operandInvalid Operand.rcx)
  req (!c.finalized) (bad Status.tdFinalized 0)
  let (_, p) ← lockWalk s l td t c gpa (some 0) .shared
  req (p.entry.state == .present) (eptBad Status.eptEntryNotPresent)
  let a := p.entry.hpa + gpa % 4096
  req (!poisoned s t.hkid a 256) .unbreakable
  let chunk := readBytes s t.hkid a 256
  pure (hostReturn (s.modTdcs td fun c => { c with mrtdContext := c.mrtdContext.extend gpa chunk })
    Status.success 0 memOuts)

/-- TDH.MR.EXTEND (R460). -/
def execTdhMrExtend (s : State) : Outcome := hostCall false (fun s => withOuts memOuts (mrExtend s)) s

/-- R461. -/
def mrFinalize (s : State) : Fn State := do
  let (_, td, _, c) ← openTd s Operand.rcx (s.hreg .rcx) .exclusive
  req (!c.finalized) (bad Status.tdFinalized 0)
  pure (hostReturn (s.modTdcs td fun c => { c with mrtd := c.mrtdContext.final, finalized := true })
    Status.success 0 [])

/-- TDH.MR.FINALIZE (R461). -/
def execTdhMrFinalize (s : State) : Outcome := hostCall false mrFinalize s

end Sys2Proof.Machine
end

