-- ==== Sys2Proof/Machine/ControlRegs.lean ====
section
/-! DEFINITION. The values a guest may load into CR0, CR4, IA32_DEBUGCTL, XCR0 and IA32_XSS (45_cpu_virt.md rules R592,
R605, R606 and R620): the tests that the guest's instructions and TDH.VP.WR share. -/

namespace Sys2Proof.Machine

/-- What becomes of a write of a virtualised register. -/
inductive Verdict where
  | gp | ve | ok
  deriving DecidableEq, Repr

/-- MovToCr0(v) without its CPL test (R605). -/
def cr0Verdict (g : Tdvps) (v : Word) : Verdict :=
  if (v &&& 0xFFFFFFFF1FFAFFC0) != 0 then .gp
  else if bit v 31 && !bit v 0 then .gp
  else if bit v 29 && !bit v 30 then .gp
  else if bit v 31 && !bit (g.vm Vmcs.cr4) 5 then .gp
  else if !bit v 31 && bit (g.vm Vmcs.cr0) 31 && bit (g.vm Vmcs.csAccess) 13 then .gp
  else if !bit v 31 && bit (g.vm Vmcs.cr4) 17 then .gp
  else if !bit v 0 || !bit v 5 || bit v 29 || bit v 30 then .ve
  else .ok

/-- IA32_EFER.LMA of the guest. -/
def Tdvps.lma (g : Tdvps) : Bool := bit (g.vm Vmcs.efer) 10

/-- CR4 as the guest reads it: masked bits from the read shadow (R606). -/
def Tdvps.guestCr4 (g : Tdvps) : Word :=
  (g.vm Vmcs.cr4 &&& ~~~g.vm Vmcs.cr4Mask) ||| (g.vm Vmcs.cr4Shadow &&& g.vm Vmcs.cr4Mask)

/-- CR0 as the guest reads it (R605). -/
def Tdvps.guestCr0 (g : Tdvps) : Word := g.vm Vmcs.cr0

/-- ArchIllegalCr4(v) (R606). -/
def archIllegalCr4 (g : Tdvps) (v : Word) : Bool :=
  (g.lma && !bit v 5) || (g.lma && bit v 12 != bit (g.vm Vmcs.cr4) 12)
    || (bit v 17 && !bit (g.vm Vmcs.cr4) 17 && (!g.lma || bitsOf (g.vm Vmcs.cr3) 11 0 != 0))
    || (bit v 23 && !bit (g.vm Vmcs.cr0) 16)

/-- MovToCr4(v) without its CPL test (R606). -/
def cr4Verdict (p : Platform) (c : Tdcs) (g : Tdvps) (v : Word) : Verdict :=
  if (v &&& 0xFFFFFFFFFC008000) != 0 then .gp
  else if (v &&& ~~~p.nativeCr4Allowed) != 0 then .gp
  else if bit v 22 && !bit g.xfam 9 then .gp
  else if bit v 23 && !(bit g.xfam 11 && bit g.xfam 12) then .gp
  else if bit v 25 && !bit g.xfam 14 then .gp
  else if bit v 19 && !c.kl then .gp
  else if bit v 24 && !c.pks then .gp
  else if archIllegalCr4 g v then .gp
  else if !bit v 6 || bit v 13 || bit v 14 then .ve
  else .ok

/-- The IA32_DEBUGCTL controls the CPU implements: bit 2 as CPUID(7,0).ECX[24] and bit 15 as CPUID(7,0).EBX[11]
enumerate them (R620; the enumeration is the CPU's). -/
def nativeDebugctl : Word :=
  let n := Config.nativeCpuid 7 0
  0x7FC3 ||| bitAt (n.2.2.1.getLsbD 24) 2 ||| bitAt (n.2.1.getLsbD 11) 15

/-- WRMSR of IA32_DEBUGCTL (R620); `debug` is the relaxation that TDH.VP.WR has (R174). -/
def debugctlVerdict (debug : Bool) (v : Word) : Verdict :=
  if (v &&& 0xFFFFFFFFFFFF0038) != 0 then .gp
  else if (v &&& ~~~nativeDebugctl) != 0 then .gp
  else if !debug && bit v 13 then .ve
  else if !debug && bit v 6 && !bit v 7 then .ve
  else .ok

/-- The user components of XFAM (R592). -/
def userComponents : Word := 0x602FF

/-- The supervisor components of XFAM (R592). -/
def supervisorComponents : Word := 0x1FD00

/-- Xcr0Combination(v) (R592). -/
def xcr0Combination (v : Word) : Bool :=
  bit v 0 && (!bit v 2 || bit v 1) && allOrNone v 0xE0 && (!bit v 5 || bit v 2) && allOrNone v 0x60000

/-- XSETBV of register `idx` without its CPL test (R592). -/
def xsetbvVerdict (g : Tdvps) (idx v : Word) : Verdict :=
  if idx != 0 then .gp
  else if (v &&& ~~~userComponents) != 0 then .gp
  else if (v &&& ~~~g.xfam) != 0 then .gp
  else if xcr0Combination v then .ok else .gp

/-- WRMSR of IA32_XSS (R592). -/
def xssVerdict (g : Tdvps) (v : Word) : Verdict :=
  if (v &&& ~~~supervisorComponents) != 0 then .gp
  else if (v &&& ~~~g.xfam) != 0 then .gp
  else .ok

end Sys2Proof.Machine
end

