-- ==== Sys2Proof/Machine/TdFields.lean ====
section
/-! DEFINITION. TD-scope metadata fields: the lookup `TdField(id)` (11_state_td.md rules R121 to R136, 31_data_types.md
rule R395) and the functions TDH.MNG.RD and TDH.MNG.WR (41_seamcall_mng_mr.md rules R456 and R458). -/

namespace Sys2Proof.Machine

/-- The fields of TDR and TDCS that have an identifier (R136). -/
inductive TdField where
  | init | fatal | numTdcx | chldcnt | lifecycle | tdcxPa | hkid | pkgConfigBitmap | finalized | numVcpus
  | numAssocVcpus | attributes | xfam | maxVcpus | gpaw | eptp | tscOffset | tscMultiplier | tscFrequency
  | notifyEnables | cpuidValues | xbuffOffsets | tdEpoch | refcount | mrtd | mrconfigid | mrowner | mrownerconfig
  | rtmr | mrtdContext | msrBitmaps | septRoot
  deriving DecidableEq, Repr

/-- The access words of the field tables (R123, R162). -/
inductive Access where
  | none | ro | rw | rws
  deriving DecidableEq, Repr

/-- May a caller with this access word read. -/
def Access.reads : Access → Bool
  | .none => false
  | _ => true

/-- May a caller with this access word write. -/
def Access.writes : Access → Bool
  | .rw | .rws => true
  | _ => false

/-- One row of R136: the identifiers `[first, first + count)`. -/
structure TdFieldRow where
  first : Nat
  count : Nat
  field : TdField
  prod : Access
  debug : Access
  guest : Access
  writeMask : Word
  deriving DecidableEq, Repr

/-- The rows of R136 for TDR and the management and execution-control classes. -/
def tdFieldRows1 (p : Platform) : List TdFieldRow :=
  [⟨0x8000000000000000, 1, .init, .none, .ro, .none, 0⟩,
   ⟨0x8000000000000001, 1, .fatal, .none, .ro, .none, 0⟩,
   ⟨0x8000000000000002, 1, .numTdcx, .none, .ro, .none, 0⟩,
   ⟨0x8000000000000004, 1, .chldcnt, .none, .ro, .none, 0⟩,
   ⟨0x8000000000000005, 1, .lifecycle, .none, .ro, .none, 0⟩,
   ⟨0x8000000000000010, p.tdcxRequired, .tdcxPa, .none, .ro, .none, 0⟩,
   ⟨0x8100000000000001, 1, .hkid, .none, .ro, .none, 0⟩,
   ⟨0x8100000000000002, 1, .pkgConfigBitmap, .none, .ro, .none, 0⟩,
   ⟨0x9000000000000000, 1, .finalized, .ro, .ro, .none, 0⟩,
   ⟨0x9000000000000001, 1, .numVcpus, .ro, .ro, .ro, 0⟩,
   ⟨0x9000000000000002, 1, .numAssocVcpus, .ro, .ro, .none, 0⟩,
   ⟨0x1100000000000000, 1, .attributes, .ro, .ro, .ro, 0⟩,
   ⟨0x1100000000000001, 1, .xfam, .ro, .ro, .ro, 0⟩,
   ⟨0x1100000000000002, 1, .maxVcpus, .ro, .ro, .ro, 0⟩,
   ⟨0x1100000000000003, 1, .gpaw, .ro, .ro, .ro, 0⟩,
   ⟨0x1100000000000004, 1, .eptp, .ro, .ro, .none, 0⟩,
   ⟨0x110000000000000A, 1, .tscOffset, .ro, .ro, .none, 0⟩,
   ⟨0x110000000000000B, 1, .tscMultiplier, .ro, .ro, .none, 0⟩,
   ⟨0x110000000000000C, 1, .tscFrequency, .ro, .ro, .ro, 0⟩,
   ⟨0x9100000000000010, 1, .notifyEnables, .none, .rw, .rw, 1⟩]

/-- The rows of R136 for the arrays, the epochs, the measurements and the two pages. -/
def tdFieldRows2 (p : Platform) : List TdFieldRow :=
  [⟨0x9100000000000400, 2 * p.numCpuidValues, .cpuidValues, .ro, .ro, .none, 0⟩,
   ⟨0x1100000000000800, 64, .xbuffOffsets, .ro, .ro, .none, 0⟩,
   ⟨0x9200000000000000, 1, .tdEpoch, .ro, .ro, .none, 0⟩,
   ⟨0x9200000000000001, 2, .refcount, .ro, .ro, .none, 0⟩,
   ⟨0x1300000000000000, 6, .mrtd, .ro, .ro, .ro, 0⟩,
   ⟨0x1300000000000010, 6, .mrconfigid, .ro, .ro, .ro, 0⟩,
   ⟨0x1300000000000018, 6, .mrowner, .ro, .ro, .ro, 0⟩,
   ⟨0x1300000000000020, 6, .mrownerconfig, .ro, .ro, .ro, 0⟩,
   ⟨0x1300000000000040, 24, .rtmr, .none, .ro, .ro, 0⟩,
   ⟨0x2000000000000000, 512, .msrBitmaps, .none, .ro, .none, 0⟩,
   ⟨0x2100000000000000, 512, .septRoot, .none, .ro, .none, 0⟩]

/-- The optional row of MRTD_CONTEXT: the eight words of the running SHA-384 value, at a field code of class 19 with NON_ARCH 1
(R132, D51). -/
def mrtdContextRow (p : Platform) : List TdFieldRow :=
  match p.mrtdContextCode with
  | some code => [⟨0x9300000000000000 + code, 8, .mrtdContext, .none, .ro, .none, 0⟩]
  | none => []

/-- Every TD-scope identifier (R136). -/
def tdFieldRows (p : Platform) : List TdFieldRow := tdFieldRows1 p ++ tdFieldRows2 p ++ mrtdContextRow p

/-- TdField(id): the row and the element index (R136). -/
def tdField (p : Platform) (id : Word) : Option (TdFieldRow × Nat) :=
  if bitsOf id 55 32 ≠ 0 then none
  else ((tdFieldRows p).find? fun r => decide (r.first ≤ id.toNat) && decide (id.toNat < r.first + r.count)).map
    fun r => (r, id.toNat - r.first)

/-- The host's access word, chosen by ATTRIBUTES.DEBUG (R136). -/
def TdFieldRow.host (r : TdFieldRow) (c : Tdcs) : Access := if c.debug then r.debug else r.prod

/-- The write mask of a caller with an access word (R136). -/
def TdFieldRow.maskFor (r : TdFieldRow) (a : Access) (mask : Word) : Word :=
  if a.writes then r.writeMask &&& mask else 0

/-- The model's numbers of the life-cycle states (R121). -/
def Lifecycle.code : Lifecycle → Nat
  | .hkidAssigned => 0 | .keysConfigured => 1 | .blocked => 2 | .teardown => 3

/-- Element `e` of a 48-byte hash: eight bytes, byte 8e in bits 7:0 (R132). -/
def hashElement (h : List Byte) (e : Nat) : Word := w64 (fieldAt h (8 * e) 8)

/-- One 8-byte half of a CPUID_VALUES entry: EBX:EAX, then EDX:ECX (R130). -/
def cpuidHalf (r : CpuidRegs) (half : Nat) : Word :=
  if half = 0 then w64 (r.eax.toNat + r.ebx.toNat * 2 ^ 32) else w64 (r.ecx.toNat + r.edx.toNat * 2 ^ 32)

/-- A field's element as a 64-bit value (R121 to R135). -/
def readTdField (s : State) (t : Tdr) (c : Tdcs) (i : Nat) : TdField → Word
  | .init => boolWord t.init
  | .fatal => boolWord t.fatal
  | .numTdcx => w64 t.numTdcx
  | .chldcnt => w64 t.chldcnt
  | .lifecycle => w64 t.lifecycle.code
  | .tdcxPa => w64 (t.tdcxPa.getD i 0)
  | .hkid => w64 t.hkid
  | .pkgConfigBitmap => t.pkgConfigBitmap
  | .finalized => boolWord c.finalized
  | .numVcpus => w64 c.numVcpus
  | .numAssocVcpus => w64 c.numAssocVcpus
  | .attributes => c.attributes
  | .xfam => c.xfam
  | .maxVcpus => w64 c.maxVcpus
  | .gpaw => boolWord c.gpaw
  | .eptp => c.eptp
  | .tscOffset => c.tscOffset
  | .tscMultiplier => c.tscMultiplier
  | .tscFrequency => w64 c.tscFrequency
  | .notifyEnables => c.notifyEnables
  | .cpuidValues => cpuidHalf (c.cpuidAt (i / 2)) (i % 2)
  | .xbuffOffsets => regGet c.xbuffOffsets i
  | .tdEpoch => c.tdEpoch
  | .refcount => w64 (if i = 0 then c.refcount0 else c.refcount1)
  | .mrtd => hashElement c.mrtd i
  | .mrconfigid => hashElement c.mrconfigid i
  | .mrowner => hashElement c.mrowner i
  | .mrownerconfig => hashElement c.mrownerconfig i
  | .rtmr => hashElement (c.rtmr.getD (i / 6) []) (i % 6)
  | .mrtdContext => c.mrtdContext.h.getD i 0
  | .msrBitmaps => regGet c.msrBitmaps i
  | .septRoot => septEntryOut c (septAt s (c.rootPage + 8 * i))

/-- The one writable TD-scope field is NOTIFY_ENABLES (R128, R136). -/
def writeTdField (c : Tdcs) (f : TdField) (x : Word) : Tdcs :=
  match f with
  | .notifyEnables => { c with notifyEnables := x }
  | _ => c

/-- The lookup with its failure status (R136, D26). -/
def lookupTdField (s : State) (id : Word) : Fn (TdFieldRow × Nat) :=
  getOr (tdField s.plat id) (bad Status.operandInvalid Operand.rdx)

/-! ## TDH.MNG.RD (R456) -/

/-- R456. -/
def mngRd (s : State) : Fn State := do
  let (_, _, t, c) ← openTd s Operand.rcx (s.hreg .rcx) .shared
  let (r, i) ← lookupTdField s (s.hreg .rdx)
  req (r.host c).reads (bad Status.fieldNotReadable 0)
  pure (hostReturn s Status.success 0 [(.r8, readTdField s t c i r.field)])

/-- TDH.MNG.RD (R456). -/
def execTdhMngRd (s : State) : Outcome := hostCall false (fun s => withOuts [(.r8, 0)] (mngRd s)) s

/-! ## TDH.MNG.WR (R458) -/

/-- R458. -/
def mngWr (s : State) : Fn State := do
  let (_, td, t, c) ← openTd s Operand.rcx (s.hreg .rcx) .shared
  let (r, i) ← lookupTdField s (s.hreg .rdx)
  let m := r.maskFor (r.host c) (s.hreg .r9)
  req (m != 0) (bad Status.fieldNotWritable 0)
  let old := readTdField s t c i r.field
  let s1 := s.modTdcs td fun c => writeTdField c r.field (mergeMask old (s.hreg .r8) m)
  pure (hostReturn s1 Status.success 0 [(.r8, if (r.host c).reads then old else 0)])

/-- TDH.MNG.WR (R458). -/
def execTdhMngWr (s : State) : Outcome := hostCall false (fun s => withOuts [(.r8, 0)] (mngWr s)) s

end Sys2Proof.Machine
end

