-- ==== Sys2Proof/Machine/VcpuFields.lean ====
section
/-! DEFINITION. VCPU-scope metadata fields: the lookup `VcpuField(code, debug)` (12_state_vcpu.md rules R162 to R205),
and the read and the write of a field. -/

namespace Sys2Proof.Machine

/-- Where a VCPU-scope field lives (R164 to R189, R205). -/
inductive VField where
  | vcpuState | launched | vcpuIndex | numTdvpx | pagePa (i : Nat) | assocLpid | assocHkid | vcpuEpoch
  | cpuidSupervisorVe | cpuidUserVe | sharedEptpValid | lastExitTsc | pendNmi | xfam | epfListIdx | epfStepping
  | epfList (i : Nat) | vapic (i : Nat) | ve (i : Nat) | gpr (n : Nat) | dr (n : Nat) | xcr0 | cr2 | iwk (i : Nat)
  | details | msr (index : Nat) | vmcs (field : Nat) | xbuff (i : Nat)
  deriving DecidableEq, Repr

/-- The write rules of RWS fields (R165, R173, R174, R177, R179, R181, R182, R184). -/
inductive WriteRule where
  | always | pinbased | secondary | notificationVector | sharedHpa (align : Nat) | sharedEptp | cr0 | cr4 | debugctl
  | xfam
  deriving DecidableEq, Repr

/-- The record that the lookup answers (R200): location, masks and write rule in the current mode. -/
structure VFieldInfo where
  field : VField
  readMask : Word
  writeMask : Word
  rule : WriteRule
  deriving DecidableEq, Repr

/-- A record from a size in bits, the access words and the writable bits. -/
def vfield (debug : Bool) (f : VField) (size : Nat) (prod dbg : Access) (rule : WriteRule) (writable : Word) :
    VFieldInfo :=
  let a := if debug then dbg else prod
  ⟨f, if a.reads then lowMask size else 0, if a.writes then lowMask size &&& writable else 0, rule⟩

/-- A field with no write rule and no unwritable bit. -/
def plainField (debug : Bool) (f : VField) (size : Nat) (prod dbg : Access) : VFieldInfo :=
  vfield debug f size prod dbg .always (lowMask 64)

/-! ## Class 32, Management (R164, R165) -/

/-- The management fields whose NON_ARCH is 1. -/
def managementField (p : Platform) (debug : Bool) (code : Nat) : Option VFieldInfo :=
  match code with
  | 0 => some (plainField debug .vcpuState 64 .none .ro)
  | 1 => some (plainField debug .launched 1 .none .ro)
  | 2 => some (plainField debug .vcpuIndex 32 .ro .ro)
  | 3 => some (plainField debug .numTdvpx 32 .ro .ro)
  | 4 => some (plainField debug .assocLpid 32 .ro .ro)
  | 5 => some (plainField debug .assocHkid 32 .ro .ro)
  | 6 => some (plainField debug .vcpuEpoch 64 .ro .ro)
  | 7 => some (plainField debug .cpuidSupervisorVe 1 .ro .ro)
  | 8 => some (plainField debug .cpuidUserVe 1 .ro .ro)
  | 9 => some (plainField debug .sharedEptpValid 1 .ro .ro)
  | 10 => some (plainField debug .lastExitTsc 64 .none .ro)
  | 13 => some (plainField debug .epfListIdx 64 .none .ro)
  | 14 => some (plainField debug .epfStepping 64 .none .ro)
  | n =>
    if 0x10 ≤ n ∧ n ≤ 0x10 + p.tdvpxRequired then some (plainField debug (.pagePa (n - 0x10)) 64 .ro .ro)
    else if 0x100 ≤ n ∧ n < 0x100 + p.epfGpaListSize then
      some (plainField debug (.epfList (n - 0x100)) 64 .none .ro)
    else none

/-- The management fields whose NON_ARCH is 0: PEND_NMI and XFAM. -/
def managementArchField (debug : Bool) (code : Nat) : Option VFieldInfo :=
  match code with
  | 11 => some (plainField debug .pendNmi 1 .rw .rw)
  | 12 => some (vfield debug .xfam 64 .ro .rw .xfam (lowMask 64))
  | _ => none

/-! ## Classes 1, 2, 16, 17, 18 and 19 (R166 to R170, R205) -/

/-- VE_INFO, NON_ARCH 0 (R167). -/
def veField (debug : Bool) (code : Nat) : Option VFieldInfo :=
  match code with
  | 0 | 1 => some (plainField debug (.ve code) 32 .none .ro)
  | 2 | 3 | 4 => some (plainField debug (.ve code) 64 .none .ro)
  | 5 => some (plainField debug (.ve 5) 16 .none .ro)
  | _ => none

/-- The two non-architectural VE_INFO fields (R167). -/
def veNonArchField (debug : Bool) (code : Nat) : Option VFieldInfo :=
  if code = 0x10 ∨ code = 0x11 then some (plainField debug (.ve (code - 0x10 + 6)) 32 .none .ro) else none

/-- The general registers; there is no number 4 (R168). -/
def gprField (debug : Bool) (code : Nat) : Option VFieldInfo :=
  if code < 16 ∧ code ≠ 4 then some (plainField debug (.gpr code) 64 .none .rw) else none

/-- Other guest state, NON_ARCH 0 (R169). -/
def otherField (debug : Bool) (code : Nat) : Option VFieldInfo :=
  match code with
  | 0 | 1 | 2 | 3 | 6 => some (plainField debug (.dr code) 64 .none .rw)
  | 0x20 => some (plainField debug .xcr0 64 .none .ro)
  | 0x28 => some (plainField debug .cr2 64 .none .rw)
  | 0x40 | 0x41 | 0x42 | 0x43 | 0x44 | 0x45 => some (plainField debug (.iwk (code - 0x40)) 64 .none .ro)
  | 0x46 => some (plainField debug (.iwk 6) 32 .none .ro)
  | _ => none

/-- The guest MSRs kept outside the TD VMCS: index ranges and the debug access word (R170). -/
def vpMsrRows : List (Nat × Nat × Access) :=
  [(0x48, 0x48, .rw), (0xE1, 0xE1, .rw), (0x186, 0x18D, .rw), (0x1A6, 0x1A7, .rw), (0x1C4, 0x1C5, .ro),
   (0x309, 0x30C, .rw), (0x329, 0x329, .rw), (0x38D, 0x38D, .rw), (0x38E, 0x38E, .ro), (0x3F1, 0x3F2, .rw),
   (0x3F6, 0x3F7, .rw), (0x4C1, 0x4C8, .rw), (0x600, 0x600, .rw), (0xDA0, 0xDA0, .ro), (0x14CF, 0x14CF, .rw),
   (0xC0000081, 0xC0000082, .ro), (0xC0000084, 0xC0000084, .ro), (0xC0000102, 0xC0000102, .ro),
   (0xC0000103, 0xC0000103, .rw)]

/-- Guest MSR state (R170). -/
def msrField (debug : Bool) (code : Nat) : Option VFieldInfo :=
  if code < 0x4000 then
    (vpMsrRows.find? fun r => decide (r.1 ≤ unpackMsr code) && decide (unpackMsr code ≤ r.2.1)).map
      fun r => plainField debug (.msr (unpackMsr code)) 64 .none r.2.2
  else none

/-! ## Class 0, TD VMCS (R172 to R189) -/

/-- The size in bits of a VMCS field: the width bits 14:13 of its encoding (R172). -/
def vmcsSize (enc : Nat) : Nat :=
  match enc / 2 ^ 13 % 4 with
  | 0 => 16
  | 2 => 32
  | _ => 64

/-- Ranges of encodings (step 2) with their access words, for the fields whose bits all have one access and no write
rule: control fields. -/
def vmcsControlRows : List (Nat × Nat × Access × Access) :=
  [(0x0000, 0x0000, .none, .ro), (0x0004, 0x0004, .none, .ro), (0x2000, 0x2002, .none, .ro),
   (0x2004, 0x2004, .ro, .ro), (0x2006, 0x200A, .none, .ro), (0x200C, 0x200C, .none, .none),
   (0x2010, 0x2010, .ro, .rw), (0x2012, 0x2012, .none, .none), (0x2014, 0x2014, .none, .ro),
   (0x2018, 0x201A, .ro, .ro), (0x201C, 0x2022, .none, .ro), (0x2024, 0x2024, .ro, .ro), (0x2026, 0x202A, .none, .ro),
   (0x202C, 0x202C, .none, .rw), (0x202E, 0x202E, .none, .ro), (0x2032, 0x2032, .ro, .rw), (0x2036, 0x203A, .none, .ro),
   (0x203E, 0x203E, .none, .ro), (0x4006, 0x400A, .none, .rw), (0x400C, 0x401C, .none, .ro), (0x4020, 0x4022, .ro, .rw),
   (0x4024, 0x4024, .rw, .rw), (0x6008, 0x600E, .none, .rw)]

/-- The same for guest-state, exit-information and host fields. -/
def vmcsStateRows : List (Nat × Nat × Access × Access) :=
  [(0x0800, 0x0814, .none, .rw), (0x0C00, 0x0C0C, .none, .none), (0x2400, 0x2400, .none, .ro),
   (0x2800, 0x2800, .none, .none), (0x2804, 0x2810, .none, .rw), (0x2812, 0x2812, .none, .ro),
   (0x2814, 0x2818, .none, .rw), (0x2C00, 0x2C06, .none, .none), (0x4400, 0x440E, .none, .ro),
   (0x4800, 0x4824, .none, .rw), (0x4826, 0x4826, .none, .ro), (0x4828, 0x4828, .none, .none),
   (0x482A, 0x482A, .none, .rw), (0x482E, 0x482E, .none, .rw), (0x4C00, 0x4C00, .none, .none),
   (0x6400, 0x640A, .none, .ro), (0x6802, 0x6802, .none, .rw), (0x6806, 0x682C, .none, .rw),
   (0x6C00, 0x6C1C, .none, .none)]

/-- The fields with bit-granular access, unwritable bits or a write rule (R173, R174, R177 to R184). -/
def vmcsSpecial (debug : Bool) (enc : Nat) : Option VFieldInfo :=
  let f := VField.vmcs enc
  match enc with
  | 0x0002 => some (vfield debug f 16 .rws .rws .notificationVector (lowMask 64))
  | 0x200E => some (vfield debug f 64 .ro .rws (.sharedHpa 4096) (lowMask 64))
  | 0x2016 => some (vfield debug f 64 .rws .rws (.sharedHpa 64) (lowMask 64))
  | 0x2034 => some (vfield debug f 64 .none .rw .always 1)
  | 0x203C => some ⟨f, if debug then lowMask 64 else 0x000FFFFFFFFFF000, 0x000FFFFFFFFFF000, .sharedEptp⟩
  | 0x2802 => some (vfield debug f 64 .none .rws .debugctl (lowMask 64))
  | 0x4000 => some ⟨f, if debug then lowMask 32 else 0x80, 0x80, .pinbased⟩
  | 0x4002 => some (vfield debug f 32 .none .rw .always 0x69999A04)
  | 0x4004 => some (vfield debug f 32 .none .rw .always 0xFFFBFFFF)
  | 0x401E => some ⟨f, if debug then lowMask 32 else 0xC0000000, if debug then 0xC0130C04 else 0xC0000000, .secondary⟩
  | 0x6000 => some (vfield debug f 64 .none .rw .always (~~~0x60000021))
  | 0x6002 => some (vfield debug f 64 .none .rw .always (~~~0x6040))
  | 0x6004 => some (vfield debug f 64 .none .rw .always (~~~0x21))
  | 0x6006 => some (vfield debug f 64 .none .rw .always (~~~0x40))
  | 0x6800 => some (vfield debug f 64 .none .rws .cr0 (lowMask 64))
  | 0x6804 => some (vfield debug f 64 .none .rws .cr4 (lowMask 64))
  | _ => none

/-- A TD VMCS field by its encoding; an odd encoding (HIGH access) names nothing (R172, R189). -/
def vmcsField (p : Platform) (debug : Bool) (enc : Nat) : Option VFieldInfo :=
  if enc % 2 = 1 then none
  else if p.tdHkidEnc = some enc then some (plainField debug (.vmcs enc) 32 .ro .ro)
  else
    match vmcsSpecial debug enc with
    | some i => some i
    | none =>
      ((vmcsControlRows ++ vmcsStateRows).find? fun r => decide (r.1 ≤ enc) && decide (enc ≤ r.2.1)).map
        fun r => plainField debug (.vmcs enc) (vmcsSize enc) r.2.2.1 r.2.2.2

/-! ## The lookup (R200) -/

/-- VcpuField(code, debug); `xfam` is the TD's, which fixes the size of XBUFF (R205). -/
def vcpuField (p : Platform) (xfam : Word) (debug : Bool) (id : Word) : Option VFieldInfo :=
  let code := fieldCode id
  if !fieldReservedOk id then none
  else
    match fieldNonArch id, fieldClass id with
    | false, 0 => vmcsField p debug code
    | false, 1 => if code < 512 then some (plainField debug (.vapic code) 64 .none .ro) else none
    | false, 2 => veField debug code
    | true, 2 => veNonArchField debug code
    | false, 16 => gprField debug code
    | false, 17 => otherField debug code
    | true, 17 => if code = 0x100 then some (plainField debug .details 64 .ro .ro) else none
    | false, 18 => if code < Config.xsaveUnits xfam then some (plainField debug (.xbuff code) 64 .none .rw) else none
    | false, 19 => msrField debug code
    | true, 32 => managementField p debug code
    | false, 32 => managementArchField debug code
    | _, _ => none

/-! ## Reading and writing a field -/

/-- The model's numbers of the VCPU states (R161, D54). -/
def VcpuState.code : VcpuState → Nat
  | .uninitialized => 0 | .readyAsync => 1 | .readyTdvmcall => 2 | .active => 3 | .disabled => 4

/-- VE_INFO field `i` in the order of R167. -/
def VeInfo.get (v : VeInfo) : Nat → Word
  | 0 => v.exitReason
  | 1 => v.valid
  | 2 => v.exitQualification
  | 3 => v.gla
  | 4 => v.gpa
  | 5 => v.eptpIndex
  | 6 => v.instructionLength
  | _ => v.instructionInformation

/-- Debug register `n` of the TDVPS. -/
def Tdvps.drAt (v : Tdvps) : Nat → Word
  | 0 => v.dr0
  | 1 => v.dr1
  | 2 => v.dr2
  | 3 => v.dr3
  | _ => v.dr6

/-- VMXIP: RVI[7:4] > VPPR[7:4], VPPR being byte 0xA0 of the virtual APIC page (R169, R166). -/
def Tdvps.vmxip (v : Tdvps) : Bool :=
  decide (bitsOf (regGet v.vapic 0x14) 7 4 < bitsOf (v.vm Vmcs.guestInterruptStatus) 7 4)

/-- The value of a field. -/
def readVField (v : Tdvps) : VField → Word
  | .vcpuState => w64 v.vcpuState.code
  | .launched => boolWord v.launched
  | .vcpuIndex => w64 v.vcpuIndex
  | .numTdvpx => w64 v.numTdvpx
  | .pagePa i => w64 (v.pagePa.getD i 0)
  | .assocLpid => match v.assocLpid with | some l => w64 l | none => 0xFFFFFFFF
  | .assocHkid => w64 v.assocHkid
  | .vcpuEpoch => v.vcpuEpoch
  | .cpuidSupervisorVe => boolWord v.cpuidSupervisorVe
  | .cpuidUserVe => boolWord v.cpuidUserVe
  | .sharedEptpValid => boolWord v.sharedEptpValid
  | .lastExitTsc => v.lastExitTsc
  | .pendNmi => boolWord v.pendNmi
  | .xfam => v.xfam
  | .epfListIdx => w64 v.lastEpfGpaListIdx
  | .epfStepping => w64 v.possiblyEpfStepping
  | .epfList i => v.lastEpfGpaList.getD i 0
  | .vapic i => regGet v.vapic i
  | .ve i => v.veInfo.get i
  | .gpr n => match Reg.ofId n with | some r => v.gprs.get r | none => 0
  | .dr n => v.drAt n
  | .xcr0 => v.xcr0
  | .cr2 => v.cr2
  | .iwk i => regGet v.iwk i
  | .details => boolWord v.vmxip
  | .msr i => regGet v.msrs i
  | .vmcs e => v.vm e
  | .xbuff i => regGet v.xbuff i

/-- Debug register `n` written. -/
def Tdvps.setDr (v : Tdvps) (n : Nat) (x : Word) : Tdvps :=
  match n with
  | 0 => { v with dr0 := x }
  | 1 => { v with dr1 := x }
  | 2 => { v with dr2 := x }
  | 3 => { v with dr3 := x }
  | _ => { v with dr6 := x }

/-- A TD VMCS field written, with its side effect: the Shared EPTP becomes valid, the real CR4 keeps VMXE (R182,
R606). -/
def Tdvps.writeVmcs (v : Tdvps) (e : Nat) (x : Word) : Tdvps :=
  if e = Vmcs.sharedEptp then { v.setVm e x with sharedEptpValid := true }
  else if e = Vmcs.cr4 then v.setVm e (x ||| 0x2000)
  else v.setVm e x

/-- A field written; a field that no access word lets the host write keeps its value (R162). -/
def writeVField (v : Tdvps) (f : VField) (x : Word) : Tdvps :=
  match f with
  | .pendNmi => { v with pendNmi := bit x 0 }
  | .xfam => { v with xfam := x }
  | .gpr n => match Reg.ofId n with | some r => { v with gprs := v.gprs.set r x } | none => v
  | .dr n => v.setDr n x
  | .cr2 => { v with cr2 := x }
  | .msr i => { v with msrs := regSet v.msrs i x }
  | .vmcs e => v.writeVmcs e x
  | .xbuff i => { v with xbuff := regSet v.xbuff i x }
  | _ => v

/-! ## Write rules -/

/-- A shared physical address of an object of `n` bytes aligned on its size: shared HKID, inside the physical address
width, outside SEAMRR (R181, R182). -/
def sharedHpaLegal (p : Platform) (a n : Nat) : Bool :=
  isAligned a n && decide (a < 2 ^ p.maxPa) && !isPrivateHkid p (hkidOf p a)
    && !overlaps (addrOf p a) n p.seamrrBase p.seamrrSize

/-- TDX_TD_VMCS_FIELD_NOT_INITIALIZED with the encoding of the missing field (D42). -/
def fieldMissing (enc : Nat) : HostAbort := bad Status.tdVmcsFieldNotInitialized enc

/-- The initial, invalid posted-interrupt descriptor address (R181, D57). -/
def invalidPid : Word := 0xFFFFFFFFFFFFFFC0

/-- The initial, invalid PML address (R184). -/
def invalidPml : Word := 0xFFFFFFFFFFFFF000

/-- The write rule on the merged value (R200 (c), D42). The CR0 and CR4 rules see the merged value of the REAL register,
whose bit 13 of CR4 is 1: DESIGN CHOICE (log entry 27). -/
def checkWrite (p : Platform) (c : Tdcs) (v : Tdvps) (x : Word) : WriteRule → Fn Unit
  | .always => .ok ()
  | .pinbased => do
    req (!bit x 7 || v.vm Vmcs.pidAddress != invalidPid) (fieldMissing Vmcs.pidAddress)
    req (!bit x 7 || v.vm Vmcs.pirVector != 0xFFFF) (fieldMissing Vmcs.pirVector)
  | .secondary => req (!bit x 17 || v.vm Vmcs.pmlAddress != invalidPml) (fieldMissing Vmcs.pmlAddress)
  | .notificationVector => req (decide (x ≤ 255)) (bad Status.operandInvalid Operand.r8)
  | .sharedHpa n => req (sharedHpaLegal p x.toNat n) (bad Status.operandInvalid Operand.r8)
  | .sharedEptp => req (sharedHpaLegal p (bitsOf x 51 12 * 4096) 4096) (bad Status.operandInvalid Operand.r8)
  | .cr0 => req (cr0Verdict v x == .ok) (bad Status.operandInvalid Operand.r8)
  | .cr4 => req (cr4Verdict p c v x == .ok) (bad Status.operandInvalid Operand.r8)
  | .debugctl => req (debugctlVerdict true x == .ok) (bad Status.operandInvalid Operand.r8)
  | .xfam => req (xfamLegal p x) (bad Status.operandInvalid Operand.r8)

end Sys2Proof.Machine
end

