-- ==== Sys2Proof/Machine/Vp.lean ====
section
/-! DEFINITION. The host-side VCPU functions TDH.VP.* and the association of a VCPU with a logical processor
(43_seamcall_vp.md rules R510 to R517). -/

namespace Sys2Proof.Machine

/-! ## TDH.VP.ADDCX (R510) -/

/-- A TDVPS with a TDVPX page added (R510 step 10). -/
def Tdvps.addPage (v : Tdvps) (a : Nat) : Tdvps :=
  { v with numTdvpx := v.numTdvpx + 1, pagePa := v.pagePa ++ [a] }

/-- R510. -/
def vpAddcx (s : State) : Fn State := do
  let x ← checkHpa s Operand.rcx (s.hreg .rcx) 4096
  let v ← checkHpa s Operand.rdx (s.hreg .rdx) 4096
  let l ← lockPage4k s.locks v .exclusive .shared Operand.rdx
  req (pageIs s v 0 .tdvpr) (bad Status.pageMetadataIncorrect Operand.rdx)
  let (l, td, t) ← lockOwner s l v .shared
  checkTdState t
  let c ← getTdcs s td t
  req (!c.finalized) (bad Status.tdFinalized 0)
  let p ← getVp s v t.hkid
  req (p.vcpuState == .uninitialized) (bad Status.vcpuStateIncorrect 0)
  let _ ← lockPage4k l x .exclusive .shared Operand.rcx
  req (pageFree s x 0) (bad Status.pageMetadataIncorrect Operand.rcx)
  req (decide (p.numTdvpx < s.plat.tdvpxRequired)) (bad Status.tdvpxNumIncorrect 0)
  let s1 := zeroDirect s t.hkid x 4096
  let s2 := s1.modVp v fun p => p.addPage x
  let s3 := s2.modTdr td fun t => { t with chldcnt := t.chldcnt + 1 }
  pure (hostReturn (s3.assignPage x 0 .tdvpx td) Status.success 0 [])

/-- TDH.VP.ADDCX (R510). -/
def execTdhVpAddcx (s : State) : Outcome := hostCall false vpAddcx s

/-! ## TDH.VP.CREATE (R511) -/

/-- VE_INFO with nothing in it (R167). -/
def VeInfo.empty : VeInfo := ⟨0, 0, 0, 0, 0, 0, 0, 0⟩

/-- The TDVPS of a VCPU just created: every field 0 but the management fields of R511 step 9 (R164, R165). -/
def Tdvps.created (a : Nat) : Tdvps :=
  { event := none, mtfPending := false, accept := none, vcpuState := .uninitialized, launched := false, vcpuIndex := 0, numTdvpx := 0, pagePa := [a], assocLpid := none,
    assocHkid := 0, vcpuEpoch := 0, cpuidSupervisorVe := false, cpuidUserVe := false, sharedEptpValid := false,
    lastExitTsc := 0, pendNmi := false, xfam := 0, lastEpfGpaListIdx := 0, possiblyEpfStepping := 0,
    lastEpfGpaList := [], vapic := [], veInfo := VeInfo.empty, gprs := Gprs.zero, dr0 := 0, dr1 := 0, dr2 := 0,
    dr3 := 0, dr6 := 0, xcr0 := 0, cr2 := 0, iwk := [], msrs := [], vmcs := [], xbuff := [] }

/-- R511. -/
def vpCreate (s : State) : Fn State := do
  let v ← checkHpa s Operand.rcx (s.hreg .rcx) 4096
  let td ← checkHpa s Operand.rdx (s.hreg .rdx) 4096
  let l ← lockPage4k s.locks td .shared .shared Operand.rdx
  let t ← checkTd s td Operand.rdx
  let c ← getTdcs s td t
  req (!c.finalized) (bad Status.tdFinalized 0)
  let _ ← lockPage4k l v .exclusive .shared Operand.rcx
  req (pageFree s v 0) (bad Status.pageMetadataIncorrect Operand.rcx)
  let s1 := zeroDirect s t.hkid v 4096
  let s2 := s1.modTdr td fun t => { t with chldcnt := t.chldcnt + 1 }
  let s3 := { s2 with vps := tblSet s2.vps v (Tdvps.created v) }
  pure (hostReturn (s3.assignPage v 0 .tdvpr td) Status.success 0 [])

/-- TDH.VP.CREATE (R511). -/
def execTdhVpCreate (s : State) : Outcome := hostCall false vpCreate s

/-! ## Associate (R517) -/

/-- An address with the HKID bits of `h` in place of its own. -/
def rekey (p : Platform) (a : Word) (h : Nat) : Word := w64 (withHkid p a.toNat h)

/-- The HKID-bearing fields of the TD VMCS rewritten for a new HKID (R184, R517 step x.3). -/
def Tdvps.rekey (v : Tdvps) (p : Platform) (h : Nat) : Tdvps :=
  let v1 := v.setVms [(Vmcs.virtualApic, Machine.rekey p (v.vm Vmcs.virtualApic) h),
    (Vmcs.msrBitmap, Machine.rekey p (v.vm Vmcs.msrBitmap) h), (Vmcs.veInfo, Machine.rekey p (v.vm Vmcs.veInfo) h)]
  match p.tdHkidEnc with
  | some e => v1.setVm e (w64 h)
  | none => v1

/-- The VCPU after association with a logical processor (R517 steps x.2 and x.3). -/
def Tdvps.associated (v : Tdvps) (p : Platform) (lp hkid : Nat) : Tdvps :=
  let v1 := if v.assocLpid = none then { v with assocLpid := some lp, launched := false } else v
  if v1.assocHkid = hkid then v1 else { v1 with assocHkid := hkid }.rekey p hkid

/-- Associate(v, lp) for the TDVPR page `a` of the TD `td` (R517, D37: a disabled VCPU is refused in all four flows; what
R704 says in passing of TDH.VP.RD gives way to that, log entry 87). -/
def associate (s : State) (a td : Nat) (v : Tdvps) (hkid : Nat) : Fn State := do
  req (v.vcpuState != .uninitialized && v.vcpuState != .disabled) (bad Status.vcpuStateIncorrect 0)
  req (v.assocLpid == none || v.assocLpid == some s.curLp) (bad Status.vcpuAssociated 0)
  let s1 := s.modVp a fun p => p.associated s.plat s.curLp hkid
  pure (s1.modTdcs td fun c => if v.assocLpid = none then { c with numAssocVcpus := c.numAssocVcpus + 1 } else c)

/-! ## TDH.VP.ENTER (R512) -/

/-- One REFCOUNT more for the parity of an epoch (R263, R512 step 8.3). -/
def Tdcs.ref (c : Tdcs) (epoch : Word) : Tdcs :=
  if bit epoch 0 then { c with refcount1 := c.refcount1 + 1 } else { c with refcount0 := c.refcount0 + 1 }

/-- The ASID of a VCPU without its PCID: the TD's root page and the VPID (R188). -/
def asidMatches (e : TlbEntry) (v : Tdvps) : Bool :=
  e.eptp == bitsOf (v.vm Vmcs.eptp) 51 12 * 4096 && e.vpid == (v.vm Vmcs.vpid).toNat

/-- Flush every cached translation of a VCPU on a logical processor (R258, R263). -/
def Lp.flushVcpu (l : Lp) (v : Tdvps) : Lp := { l with tlb := l.tlb.filter fun e => !asidMatches e v }

/-- The GPRs a TDH.VP.ENTER after TDG.VP.VMCALL may pass to the guest (R512 step 10.1.1). -/
def passedRegs : List Reg := [.rbx, .rdx, .rbp, .rdi, .rsi, .r8, .r9, .r10, .r11, .r12, .r13, .r14, .r15]

/-- Take from `src` the registers that the mask selects. -/
def passGprs (mask : Word) (src dst : Gprs) : List Reg → Gprs
  | [] => dst
  | r :: rs => passGprs mask src (if bit mask r.id then dst.set r (src.get r) else dst) rs

/-- The 8-byte elements of XMM `i` in the XSAVE area (byte 160 + 16 i, R205). -/
def xmmUnit (i half : Nat) : Nat := 20 + 2 * i + half

/-- The elements of XMM `i` in a logical processor's extended state (component 1). -/
def xmmKey (i half : Nat) : Nat := 65536 + 2 * i + half

/-- Pass the XMM registers that the mask selects from the host to the guest (R512 step 10.1). -/
def passXmmIn (mask : Word) (host guest : RegFile) : List Nat → RegFile
  | [] => guest
  | i :: is =>
    passXmmIn mask host
      (if bit mask (16 + i) then
        regSet (regSet guest (xmmUnit i 0) (regGet host (xmmKey i 0))) (xmmUnit i 1) (regGet host (xmmKey i 1))
       else guest) is

/-- The guest's registers at entry (R512 step 10). -/
def Tdvps.enter (v : Tdvps) (epoch : Word) (l : Lp) : Tdvps :=
  let v1 := { v.loadExt with vcpuEpoch := epoch, vcpuState := .active, launched := true }
  if v.vcpuState = .readyTdvmcall then
    { v1 with gprs := (passGprs v.gprs.rcx l.gprs v.gprs passedRegs).set .rax 0
              xbuff := passXmmIn v.gprs.rcx l.ext v1.xbuff (List.range 16) }
  else v1

/-- The environment checks of TDH.VP.ENTER (R512). -/
def entryEnvironment (s : State) (v : Tdvps) : Fn Unit := do
  req (!bit s.lp.miscEnable 22) (bad Status.bootNt4Set 0)
  req (s.lp.tscAdjust == s.sampledTscAdjust) (bad Status.inconsistentMsr 0x3B)
  req (decide (v.lastExitTsc ≤ s.tsc)) (bad Status.tscRollback 0)

/-- Is a listed GPA mapped well enough for the zero-step check (R746): a present leaf, or a pending one that would
give #VE. -/
def epfMapped (s : State) (c : Tdcs) (hkid : Nat) (gpa : Word) : Bool :=
  match septWalk s c hkid gpa.toNat none with
  | .ok p => p.entry.leaf && (p.entry.state == .present || (p.entry.state == .pending && !c.septVeDisable))
  | _ => false

/-- The walk of a listed GPA consumes poison (R271, R751). -/
def epfPoisoned (s : State) (c : Tdcs) (hkid : Nat) (gpa : Word) : Bool :=
  septWalk s c hkid gpa.toNat none == .poison

/-- The zero-step check of TDH.VP.ENTER (R746, D91): the Secure EPT tree is locked for its duration. -/
def zeroStepCheck (s : State) (l : Locks) (td : Nat) (c : Tdcs) (v : Tdvps) (hkid : Nat) : Fn Unit := do
  let _ ← if v.lastEpfGpaListIdx = 0 then .ok l else lockOp l (.sept td) .exclusive Operand.sept
  req (!(v.lastEpfGpaList.take v.lastEpfGpaListIdx).any fun g => epfPoisoned s c hkid g) .unbreakable
  req (v.lastEpfGpaListIdx == 0 || (v.lastEpfGpaList.take v.lastEpfGpaListIdx).all fun g => epfMapped s c hkid g)
    (bad s.plat.statusEpfEntryRefused 0)

/-- The cached translations after the flush of step 8: flushed when the epoch has changed (R263). -/
def Lp.flushIfStale (l : Lp) (v : Tdvps) (epoch : Word) : Lp := if v.vcpuEpoch = epoch then l else l.flushVcpu v

/-- The test of IS_SHARED_EPTP_VALID, where the module build makes it (R165; log entry 25). -/
def sharedEptpOk (s : State) (v : Tdvps) : Bool := !s.plat.entryNeedsSharedEptp || v.sharedEptpValid

/-- The VM entry of TDH.VP.ENTER: a guest state that a debugger has made bad makes it fail; else it delivers what is to be
delivered (R642, R621, R636). `p` is the VCPU as the function found it. -/
def enterGuest (s : State) (v : Nat) (c : Tdcs) (p : Tdvps) : State :=
  match entryRefusal c p with
  | some n => unexpectedExit s v (entryFailureExit n (Config.freeWord s.tick 39))
  | none => entryEvents s v

/-- R512; an ill-formed XBUFF header is fatal at the load of the extended state (R205). -/
def vpEnter (s : State) : Fn State := do
  let v ← checkHpa s Operand.rcx (s.hreg .rcx) 4096
  let l ← lockPage4k s.locks v .shared .shared Operand.rcx
  req (pageIs s v 0 .tdvpr) (bad Status.pageMetadataIncorrect Operand.rcx)
  let (l, td, t) ← lockOwner s l v .shared
  checkTdState t
  let c ← getTdcs s td t
  req c.finalized (bad Status.tdNotFinalized 0)
  let p ← getVp s v t.hkid
  req (p.numTdvpx == s.plat.tdvpxRequired) (bad Status.tdvpxNumIncorrect 0)
  entryEnvironment s p
  let s1 ← associate s v td p t.hkid
  req (sharedEptpOk s p) (bad Status.tdVmcsFieldNotInitialized Vmcs.sharedEptp)
  let _ ← lockOp l (.epoch td) .shared Operand.tdEpoch
  zeroStepCheck s l td c p t.hkid
  req p.xbuffHeaderOk .fatal
  let s2 := s1.modVp v fun p => (p.enter c.tdEpoch s.lp).entering
  let s3 := s2.modTdcs td fun c => c.ref c.tdEpoch
  let s4 := { s3 with locks := l }.modLp fun lp =>
    { lp.flushIfStale p c.tdEpoch with curVcpu := some v, lastVcpu := some v }
  pure (enterGuest s4 v c p)

/-- XFAM of the TD that TDH.VP.ENTER's operand names, 0 where it names none. -/
def entryXfam (s : State) : Word :=
  let v := (s.hreg .rcx).toNat
  if pageIs s v 0 .tdvpr then ((tblGet s.tdcss (s.ownerOf v)).map (·.xfam)).getD 0 else 0

/-- The host's extended state after a failing TDH.VP.ENTER: each component that the TD may use is left or cleared to its
INIT state, which of the two is free (R512; 93_implementation_defined.md section 3.3; log entry 50). -/
def extAfterFailure (s : State) (ext : RegFile) : RegFile := extInit (entryXfam s &&& Config.freeWord s.tick 36) ext

/-- A failing TDH.VP.ENTER returns its status. -/
def entryAnswer (s : State) (r : Fn State) : Fn State :=
  match r with
  | .error (.status a d o) => .ok (hostReturn (s.modLp fun l => { l with ext := extAfterFailure s l.ext }) a d o)
  | r => r

/-- TDH.VP.ENTER (R512): on success the logical processor runs the guest, and the function completes at the next TD
exit (R700, R549). -/
def execTdhVpEnter (s : State) : Outcome := hostCall false (fun s => entryAnswer s (vpEnter s)) s

/-! ## TDH.VP.FLUSH (R513) -/

/-- Flush every translation of a TD on a logical processor: INVEPT single-context (R513 step 4). -/
def Lp.flushTd (l : Lp) (root : Nat) : Lp := { l with tlb := l.tlb.filter fun e => e.eptp != root }

/-- R513. -/
def vpFlush (s : State) : Fn State := do
  let v ← checkHpa s Operand.rcx (s.hreg .rcx) 4096
  let l ← lockPage4k s.locks v .exclusive .shared Operand.rcx
  req (pageIs s v 0 .tdvpr) (bad Status.pageMetadataIncorrect Operand.rcx)
  let (_, td, t) ← lockOwner s l v .shared
  req (t.lifecycle == .keysConfigured) (bad Status.tdKeysNotConfigured 0)
  let p ← getVp s v t.hkid
  req (p.numTdvpx == s.plat.tdvpxRequired) (bad Status.tdvpxNumIncorrect 0)
  req (p.assocLpid == some s.curLp) (bad Status.vcpuNotAssociated 0)
  let c ← getTdcs s td t
  let s1 := s.modLp fun l => l.flushTd c.rootPage
  let s2 := s1.modVp v fun p => { p with assocLpid := none }
  let s3 := s2.modTdcs td fun c => { c with numAssocVcpus := c.numAssocVcpus - 1 }
  pure (hostReturn s3 Status.success 0 [])

/-- TDH.VP.FLUSH (R513). -/
def execTdhVpFlush (s : State) : Outcome := hostCall false vpFlush s

end Sys2Proof.Machine
end

