-- ==== Sys2Proof/Machine/VpInit.lean ====
section
/-! DEFINITION. TDH.VP.INIT, TDH.VP.RD and TDH.VP.WR (43_seamcall_vp.md rules R514 to R516) and the initial values of a
VCPU (12_state_vcpu.md rules R164 to R189). -/

namespace Sys2Proof.Machine

/-! ## Initial values (R164 to R189) -/

/-- NULL_PA (12_state_vcpu.md, notation). -/
def nullPa : Word := 0xFFFFFFFFFFFFFFFF

/-- CR0_MASK (R183). -/
def cr0MaskFor (p : Platform) : Word :=
  0x60000021 ||| 0xFFFFFFFF1FFAFFC0 ||| ((p.cr0Fixed0 ||| (~~~p.cr0Fixed1 &&& 0xFFFFFFFF)) &&& ~~~0x80000000)

/-- CR0_SHADOW (R183). -/
def cr0ShadowFor (p : Platform) : Word := 0x21 ||| (p.cr0Fixed0 &&& ~~~0x80000000)

/-- CR4_MASK (R183). -/
def cr4MaskFor (p : Platform) (c : Tdcs) : Word :=
  0x6040 ||| bitAt (!bit c.xfam 9) 22 ||| bitAt (!(bit c.xfam 11 && bit c.xfam 12)) 23 ||| bitAt (!bit c.xfam 14) 25
    ||| bitAt (!c.kl) 19 ||| bitAt (!c.pks) 24 ||| p.cr4Fixed0 ||| ~~~p.cr4Fixed1 ||| 0xFFFFFFFFFC008000

/-- CR4_SHADOW (R183). -/
def cr4ShadowFor (p : Platform) : Word := 0x40 ||| (p.cr4Fixed0 &&& ~~~0x2000)

/-- Guest register state of the TD VMCS (R173); an element not named is 0. -/
def initGuestRegs : List (Nat × Word) :=
  [(Vmcs.cr0, 0x21), (Vmcs.cr4, 0x2040), (Vmcs.dr7, 0x400), (Vmcs.rip, 0xFFFFFFF0), (Vmcs.rflags, 2),
   (0x4800, 0xFFFFFFFF), (0x4802, 0xFFFFFFFF), (0x4804, 0xFFFFFFFF), (0x4806, 0xFFFFFFFF), (0x4808, 0xFFFFFFFF),
   (0x480A, 0xFFFFFFFF), (0x480C, 0xFFFF), (0x480E, 0xFFFF), (0x4810, 0xFFFF), (0x4814, 0xC093), (0x4816, 0xC09B),
   (0x4818, 0xC093), (0x481A, 0xC093), (0x481C, 0xC093), (0x481E, 0xC093), (0x4820, 0x10082), (0x4822, 0x8B)]

/-- Guest MSRs and non-register state of the TD VMCS (R174, R175). -/
def initGuestState : List (Nat × Word) :=
  [(Vmcs.perfGlobalCtrl, 0xFF), (Vmcs.pat, 0x0007040600070406), (Vmcs.efer, 0x901), (0x2800, nullPa),
   (0x280A, nullPa), (0x280C, nullPa), (0x280E, nullPa), (0x2810, nullPa)]

/-- The pin-based, primary, secondary, tertiary, VM-exit and VM-entry controls: of the VMX capability MSRs' must-be-1
bits, those of reserved bits are taken (R177 to R180, R185, R186). -/
def initControls (p : Platform) (c : Tdcs) : List (Nat × Word) :=
  let pd := c.perfmon || c.debug
  [(Vmcs.pinbased, 0x29 ||| (p.pinbasedMust1 &&& 0xFFFFFF16)),
   (Vmcs.procbased, 0xB1220488 ||| bitAt (!c.perfmon) 11 ||| (p.procbasedMust1 &&& 0x04046173)),
   (Vmcs.secondary, 0x133CB3FA ||| bitAt c.waitpkg 26 ||| bitAt c.pconfig 27),
   (Vmcs.tertiary, bitAt c.gpaw 5),
   (Vmcs.exitControls, 0x1F3C8204 ||| (if pd then 0x40001000 else 0) ||| bitAt c.debug 22 |||
      (p.exitMust1 &&& 0x80036DFB)),
   (Vmcs.entryControls, 0x003EC004 ||| bitAt pd 13 ||| bitAt (c.pks || c.debug) 22 |||
      (p.entryMust1 &&& 0xFF8011FB))]

/-- The APIC controls, the EPTPs and the other control fields (R181 to R184). -/
def initOther (p : Platform) (c : Tdcs) (n : Nat) : List (Nat × Word) :=
  [(Vmcs.vpid, w64 (n + 1)), (Vmcs.pirVector, 0xFFFF), (Vmcs.pidAddress, invalidPid), (0x2014, nullPa),
   (Vmcs.eptp, c.eptp), (Vmcs.tscOffset, c.tscOffset), (Vmcs.tscMultiplier, c.tscMultiplier), (0x2000, nullPa),
   (0x2002, nullPa), (0x2006, nullPa), (0x2008, nullPa), (0x200A, nullPa), (0x200C, nullPa),
   (Vmcs.pmlAddress, invalidPml), (0x2024, nullPa), (0x2026, nullPa), (0x2028, nullPa), (0x202E, nullPa),
   (0x2036, nullPa), (0x2038, p.pasidLow), (0x203A, p.pasidHigh), (0x203E, nullPa), (Vmcs.exceptionBitmap, 0x40000),
   (Vmcs.cr0Mask, cr0MaskFor p), (Vmcs.cr4Mask, cr4MaskFor p c), (Vmcs.cr0Shadow, cr0ShadowFor p),
   (Vmcs.cr4Shadow, cr4ShadowFor p)]

/-- The fields that hold an address with the TD's HKID, and the HKID itself (R133, R181, R184). Which page holds what, and
where VE_INFO lies in its page, are not in the source (log entry 28). -/
def initAddresses (p : Platform) (t : Tdr) (pages : List Nat) : List (Nat × Word) :=
  [(Vmcs.virtualApic, w64 (withHkid p (pages.getD p.vapicPage 0) t.hkid)),
   (Vmcs.msrBitmap, w64 (withHkid p (t.tdcxPa.getD p.msrBitmapTdcx 0) t.hkid)),
   (Vmcs.veInfo, w64 (withHkid p (pages.getD p.veInfoPage 0 + Config.veInfoOffset % 4096) t.hkid))]
    ++ match p.tdHkidEnc with | some e => [(e, w64 t.hkid)] | none => []

/-- The guest GPRs (R168): `x` is RDX of TDH.VP.INIT, `n` the VCPU index. -/
def initGprs (c : Tdcs) (x : Word) (n : Nat) : Gprs :=
  { Gprs.zero with
    rcx := x, r8 := x, rbx := w64 c.gpaWidth, rdx := w64 (c.cpuidAt 1).eax.toNat, rsi := w64 n }

/-- XBUFF after TDH.VP.INIT: zero but for XCOMP_BV (R205). -/
def initXbuff (c : Tdcs) : RegFile := regSet [] 65 (0x8000000000000000 ||| c.xfam)

/-- The TDVPS that TDH.VP.INIT leaves (R514 steps 8 to 10). -/
def Tdvps.initialised (v : Tdvps) (s : State) (t : Tdr) (c : Tdcs) (n : Nat) (x : Word) : Tdvps :=
  { v with
    event := none, mtfPending := false, accept := none, vcpuState := .readyAsync, launched := false, vcpuIndex := n, assocLpid := some s.curLp, assocHkid := t.hkid,
    cpuidSupervisorVe := false, cpuidUserVe := false, sharedEptpValid := false, lastExitTsc := s.tsc,
    pendNmi := false, xfam := c.xfam, lastEpfGpaListIdx := 0, possiblyEpfStepping := 0, lastEpfGpaList := [],
    vapic := [], veInfo := VeInfo.empty, gprs := initGprs c x n, dr0 := 0, dr1 := 0, dr2 := 0, dr3 := 0,
    dr6 := 0xFFFF0FF0, xcr0 := 1, cr2 := 0, iwk := [], msrs := [], xbuff := initXbuff c
    vmcs := regSetAll [] (initGuestRegs ++ initGuestState ++ initControls s.plat c ++ initOther s.plat c n ++
      initAddresses s.plat t v.pagePa) }

/-! ## TDH.VP.INIT (R514) -/

/-- The initial CR0, PG apart, and CR4 agree with the fixed-0 and fixed-1 bits of the platform (R173). -/
def Platform.crInitOk (p : Platform) : Bool :=
  (p.cr0Fixed0 &&& ~~~0x80000021) == 0 && (0x21 &&& ~~~p.cr0Fixed1) == 0 && (p.cr4Fixed0 &&& ~~~0x2040) == 0 &&
    (0x2040 &&& ~~~p.cr4Fixed1) == 0

/-- R514. A platform on which the check of R173 fails is a fatal error: R514 has no status for it (log entry 65). -/
def vpInit (s : State) : Fn State := do
  let v ← checkHpa s Operand.rcx (s.hreg .rcx) 4096
  let l ← lockPage4k s.locks v .exclusive .shared Operand.rcx
  req (pageIs s v 0 .tdvpr) (bad Status.pageMetadataIncorrect Operand.rcx)
  let (_, td, t) ← lockOwner s l v .shared
  req (!t.fatal) (bad Status.tdFatal 0)
  req (t.lifecycle == .keysConfigured) (bad Status.tdKeysNotConfigured 0)
  let c ← getTdcs s td t
  req (!c.finalized) (bad Status.tdFinalized 0)
  let p ← getVp s v t.hkid
  req (p.vcpuState == .uninitialized) (bad Status.vcpuStateIncorrect 0)
  req (p.numTdvpx == s.plat.tdvpxRequired) (bad Status.tdvpxNumIncorrect 0)
  req (s.lp.tscAdjust == s.sampledTscAdjust) (bad Status.inconsistentMsr 0x3B)
  req (decide (c.numVcpus < c.maxVcpus)) (bad Status.maxVcpusExceeded 0)
  req s.plat.crInitOk .fatal
  let s1 := s.modVp v fun p => p.initialised s t c c.numVcpus (s.hreg .rdx)
  let s2 := s1.modTdcs td fun c => { c with numVcpus := c.numVcpus + 1, numAssocVcpus := c.numAssocVcpus + 1 }
  pure (hostReturn s2 Status.success 0 [])

/-- TDH.VP.INIT (R514). -/
def execTdhVpInit (s : State) : Outcome := hostCall false vpInit s

/-! ## TDH.VP.RD and TDH.VP.WR (R515, R516) -/

/-- What both functions open with: the TDVPR page, the TD's state, the number of pages. -/
def openVp (s : State) : Fn (Nat × Nat × Tdr × Tdcs × Tdvps) := do
  let v ← checkHpa s Operand.rcx (s.hreg .rcx) 4096
  let l ← lockPage4k s.locks v .shared .shared Operand.rcx
  req (pageIs s v 0 .tdvpr) (bad Status.pageMetadataIncorrect Operand.rcx)
  let (_, td, t) ← lockOwner s l v .shared
  checkTdState t
  let c ← getTdcs s td t
  let p ← getVp s v t.hkid
  req (p.numTdvpx == s.plat.tdvpxRequired) (bad Status.tdvpxNumIncorrect 0)
  pure (v, td, t, c, p)

/-- The lookup with its failure status (R200, D26). -/
def lookupVcpuField (s : State) (c : Tdcs) (id : Word) : Fn VFieldInfo :=
  getOr (vcpuField s.plat c.xfam c.debug id) (bad Status.operandInvalid Operand.rdx)

/-- R515. -/
def vpRd (s : State) : Fn State := do
  let (v, td, t, c, p) ← openVp s
  let f ← lookupVcpuField s c (s.hreg .rdx)
  req (f.readMask != 0) (bad Status.fieldNotReadable 0)
  let s1 ← associate s v td p t.hkid
  let x := readVField (p.associated s.plat s.curLp t.hkid) f.field
  pure (hostReturn s1 Status.success 0 [(.r8, x &&& f.readMask)])

/-- TDH.VP.RD (R515). -/
def execTdhVpRd (s : State) : Outcome := hostCall false (fun s => withOuts [(.r8, 0)] (vpRd s)) s

/-- R516. -/
def vpWr (s : State) : Fn State := do
  let (v, td, t, c, p) ← openVp s
  let f ← lookupVcpuField s c (s.hreg .rdx)
  let w := f.writeMask &&& s.hreg .r9
  req (w != 0) (bad Status.fieldNotWritable 0)
  let s1 ← associate s v td p t.hkid
  let p1 := p.associated s.plat s.curLp t.hkid
  let old := readVField p1 f.field
  let new := mergeMask old (s.hreg .r8) w
  checkWrite s.plat c p1 new f.rule
  let s2 := s1.modVp v fun p => writeVField p f.field new
  pure (hostReturn s2 Status.success 0 [(.r8, old &&& f.readMask)])

/-- TDH.VP.WR (R516). -/
def execTdhVpWr (s : State) : Outcome := hostCall false (fun s => withOuts [(.r8, 0)] (vpWr s)) s

end Sys2Proof.Machine
end

