-- ==== Sys2Proof/Machine/Guest.lean ====
section
/-! DEFINITION. What the guest-side functions and the guest's operations share: how a guest-side function ends
(44_tdcall.md, template), TDCALL's common checks (30_encoding.md rule R328), and the translation of guest physical
addresses through the Secure EPT and the Shared EPT (21_secure_ept.md rules R257 and R265). -/

namespace Sys2Proof.Machine

/-! ## VM-exit records (R702) -/

/-- The record of a VM exit whose only content is its reason and the instruction's length. -/
def instrExit (reason length : Nat) : VmExit := { VmExit.plain (w64 reason) with instrLength := w64 length }

/-- The length of TDCALL in bytes (R710, the row of a guest-side flow). -/
def tdcallLength : Nat := 4

/-- The record of the TDCALL VM exit, reason 77. -/
def tdcallExit : VmExit := instrExit 77 tdcallLength

/-- The access bits 2:0 of an EPT-violation exit qualification (R702). -/
def AccessKind.qual : AccessKind → Word
  | .read => 1
  | .write => 2
  | .fetch => 4
  | .update => 3

/-- An EPT-violation record (R702, R712): the access bits and the permissions of the translation in bits 5:3. -/
def eptViolationExit (kind : AccessKind) (perms : Word) (gla gpa : Word) : VmExit :=
  { VmExit.plain 48 with qualification := kind.qual ||| (perms <<< 3), gla := gla, gpa := gpa }

/-- The EPT-violation record that the module composes in a guest-side flow: the access, bits 6:3 of the qualification 0, the
length of TDCALL, instruction information 0 (R265, R710). For AcceptExit (R541), whose length no rule gives, the same length
is a DESIGN CHOICE (log entry 33). -/
def flowViolation (kind : AccessKind) (gpa : Nat) : VmExit :=
  { eptViolationExit kind 0 0 (w64 gpa) with instrLength := w64 tdcallLength }

/-! ## How a guest-side function ends -/

/-- How a guest-side function stops before its end. -/
inductive GuestAbort where
  /-- completes locally with a status and the listed outputs: RIP past TDCALL, no other effect -/
  | status (value details : Nat) (outs : List (Reg × Word))
  /-- #VE emulated by the module: no completion -/
  | ve (x : VmExit)
  /-- an asynchronous TD exit with an extended qualification: no completion -/
  | tdExit (x : VmExit) (extQual : Word)
  /-- the module consumes poison: unbreakable shutdown -/
  | unbreakable
  /-- a fatal error of the module -/
  | fatal
  deriving DecidableEq, Repr

/-- A guest-side function's answer. -/
abbrev GFn (α : Type) := Except GuestAbort α

/-- Go on if the condition holds, else abort. -/
def greq (c : Bool) (a : GuestAbort) : GFn Unit := if c then .ok () else .error a

/-- The value of an option, or an abort. -/
def gOr {α : Type} (o : Option α) (a : GuestAbort) : GFn α :=
  match o with
  | some x => .ok x
  | none => .error a

/-- NAME | details, with no extended output. -/
def gbad (value details : Nat) : GuestAbort := .status value details []

/-- Outputs written on every local completion that fails. -/
def gWithOuts {α : Type} (outs : List (Reg × Word)) (r : GFn α) : GFn α :=
  match r with
  | .error (.status v d o) => .error (.status v d (outs ++ o))
  | r => r

/-- The VCPU after a TDCALL has completed locally: RAX the status, the outputs, RIP past TDCALL, the zero-step
counters started again (44_tdcall.md, template; R746). Blocking by STI or MOV SS stays as it is: the source does not
say whether a TDCALL ends it (R549; log entry 59). -/
def Tdvps.complete (p : Tdvps) (value details : Nat) (outs : List (Reg × Word)) : Tdvps :=
  (({ p with gprs := (p.gprs.setAll outs).set .rax (statusWord value details) }.setVm Vmcs.rip
    (p.vm Vmcs.rip + w64 tdcallLength)).progress).entering

/-- Local completion of a TDCALL. -/
def guestReturn (s : State) (v : Nat) (value details : Nat) (outs : List (Reg × Word)) : State :=
  s.modVp v fun p => p.complete value details outs

/-- What becomes of a guest-side function's answer. -/
def finishGuest (s : State) (v : Nat) (r : GFn State) : State :=
  match r with
  | .ok s' => s'
  | .error (.status a d outs) => guestReturn s v a d outs
  | .error (.ve x) => guestVe s v x
  | .error (.tdExit x q) => guestExit s v x .success q
  | .error .unbreakable => unbreakableShutdown s
  | .error .fatal => fatalShutdown s

/-- 64-bit mode: IA32_EFER.LMA and CS.L (R328). -/
def Tdvps.in64 (p : Tdvps) : Bool := p.lma && bit (p.vm Vmcs.csAccess) 13

/-- The VM exit that TDCALL causes has been recorded. -/
def State.tdcallEntered (s : State) (v : Nat) : State := s.modVp v fun p => recordExit p tdcallExit

/-- TDCALL of a VCPU: the mode check, then the function, given the state after the VM exit, the VCPU and its TD
(R328, D72: any CPL). -/
def tdcallFrom (s : State) (v : Nat) (p : Tdvps) (body : State → Nat → GFn State) : State :=
  if !p.in64 then guestFault s v tdcallExit 13 (some 0)
  else
    let s1 := s.tdcallEntered v
    finishGuest s1 v (body s1 v)

/-- TDCALL of the guest `v`; a VM exit after TDX has been disabled cannot be served (R328, D92). -/
def guestTdcall (s : State) (v : Nat) (body : State → Nat → GFn State) : State :=
  match tblGet s.vps v with
  | none => fatalShutdown s
  | some p => serveExit s v (tdcallFrom s v p body)

/-- TDCALL with a supported leaf: only in TDX non-root mode (R328). -/
def guestCall (body : State → Nat → GFn State) (s : State) : Outcome :=
  match lpStop s, s.lp.curVcpu with
  | some o, _ => o
  | none, none => .refused .tdcallOutsideGuest
  | none, some v => .next (guestTdcall s v body)

/-- TDCALL of an unsupported leaf (R328 check 2). -/
def unsupportedTdcall (s : State) : Outcome :=
  guestCall (fun _ _ => .error (gbad Status.operandInvalid Operand.rax)) s

/-- The VCPU, its TD and the TD's structures, reached with the keys they are encrypted with (R271). That every line of the
TDCX and TDVPS pages counts as read is a DESIGN CHOICE (log entry 84). -/
def openGuest (s : State) (v : Nat) : GFn (Nat × Tdr × Tdcs × Tdvps) := do
  let td := s.ownerOf v
  let p ← gOr (tblGet s.vps v) .fatal
  let t ← gOr (tblGet s.tdrs td) .fatal
  let c ← gOr (tblGet s.tdcss td) .fatal
  greq (t.tdcxPa.all (fun a => pageReadable s t.hkid a) && p.pagePa.all fun a => pageReadable s t.hkid a) .unbreakable
  pure (td, t, c, p)

/-! ## The Shared EPT (R257 item 2, R265; the format is VMX's, log entry 24) -/

/-- How a translation of a shared GPA ends. -/
inductive SharedWalk where
  /-- the host address, its HKID, the level of the leaf, whether its memory type is other than write-back (R244), and
  the permissions granted -/
  | ok (hpa hkid level : Nat) (uc : Bool) (perms : Word)
  /-- EPT violation: bit 63 of the entry where the walk stopped, and the permissions granted -/
  | violation (suppressVe : Bool) (perms : Word)
  | misconfig
  | poison
  deriving DecidableEq, Repr

/-- The permissions that an access needs are granted. -/
def AccessKind.allowed (perms : Word) (k : AccessKind) : Bool := k.qual &&& ~~~perms == 0

/-- An entry of the host's tables that cannot be read: poison, or no memory (R271). -/
def sharedEntryBad (s : State) (a : Nat) : Bool :=
  poisoned s (hkidOf s.plat a) (addrOf s.plat a) 8 || !s.plat.backed (addrOf s.plat a) 8

/-- A successful walk: the leaf `e` of a level, with the permissions of the whole walk. -/
def sharedLeaf (s : State) (gpa level : Nat) (e perms : Word) : SharedWalk :=
  .ok (addrOf s.plat (bitsOf e 51 12 * 4096) + gpa % pageBytes level) (hkidOf s.plat (bitsOf e 51 12 * 4096)) level
    (bitsOf e 5 3 != 6) (perms &&& 7)

/-- A memory type that EPT entries may hold: 0, 1, 4, 5 or 6. -/
def eptMemTypeLegal (e : Word) : Bool :=
  let m := bitsOf e 5 3
  m == 0 || m == 1 || m == 4 || m == 5 || m == 6

/-- An address that an EPT entry may hold: inside the physical address width, with a shared HKID (R240). -/
def eptAddressLegal (p : Platform) (e : Word) : Bool :=
  let a := bitsOf e 51 12 * 4096
  decide (a < 2 ^ p.maxPa) && !isPrivateHkid p (hkidOf p a)

/-- Is the entry a leaf at its level. -/
def eptLeaf (level : Nat) (e : Word) : Bool := level == 0 || ((level == 1 || level == 2) && bit e 7)

/-- A present entry that the CPU refuses: write without read, an illegal address, an illegal memory type of a leaf,
reserved bits of a non-leaf entry. -/
def eptMisconfigured (p : Platform) (level : Nat) (e : Word) : Bool :=
  (bit e 1 && !bit e 0) || !eptAddressLegal p e
    || (if eptLeaf level e then !eptMemTypeLegal e || !isAligned (bitsOf e 51 12 * 4096) (pageBytes level)
        else bitsOf e 7 3 != 0)

/-- The walk from the table at `table` (with its HKID), whose entries are of the given level; `perms` is the
permission granted so far. -/
def sharedWalkFrom (s : State) (gpa : Nat) (kind : AccessKind) (table : Nat) (perms : Word) : Nat → SharedWalk
  | 0 =>
    let a := table + 8 * septIndex gpa 0
    if sharedEntryBad s a then .poison
    else
      let e := read64 s (hkidOf s.plat a) (addrOf s.plat a)
      if (e &&& 7) = 0 then .violation (bit e 63) 0
      else if eptMisconfigured s.plat 0 e then .misconfig
      else if kind.allowed (perms &&& e) then sharedLeaf s gpa 0 e (perms &&& e)
      else .violation (bit e 63) (perms &&& e &&& 7)
  | l + 1 =>
    let a := table + 8 * septIndex gpa (l + 1)
    if sharedEntryBad s a then .poison
    else
      let e := read64 s (hkidOf s.plat a) (addrOf s.plat a)
      if (e &&& 7) = 0 then .violation (bit e 63) 0
      else if eptMisconfigured s.plat (l + 1) e then .misconfig
      else if eptLeaf (l + 1) e then
        if kind.allowed (perms &&& e) then sharedLeaf s gpa (l + 1) e (perms &&& e)
        else .violation (bit e 63) (perms &&& e &&& 7)
      else sharedWalkFrom s gpa kind (bitsOf e 51 12 * 4096) (perms &&& e) l

/-- The walk of the Shared EPT of a VCPU; it has as many levels as the Secure EPT (R182). -/
def sharedWalk (s : State) (c : Tdcs) (p : Tdvps) (gpa : Nat) (kind : AccessKind) : SharedWalk :=
  sharedWalkFrom s gpa kind (bitsOf (p.vm Vmcs.sharedEptp) 51 12 * 4096) 7 c.rootLevel

/-! ## The Secure EPT seen by the guest (R257 items 3 and 4) -/

/-- How a translation of a private GPA ends. -/
inductive PrivateWalk where
  | ok (hpa level : Nat)
  /-- not present: `suppressVe` is the Suppress-#VE bit of the deciding entry -/
  | violation (suppressVe : Bool)
  | poison
  deriving DecidableEq, Repr

/-- The walk of the Secure EPT for a guest access. -/
def privateWalk (s : State) (c : Tdcs) (hkid gpa : Nat) : PrivateWalk :=
  match septWalk s c hkid gpa none with
  | .ok p =>
    if p.entry.leaf && p.entry.state == .present then .ok (p.entry.hpa + gpa % pageBytes p.level) p.level
    else .violation (!p.entry.leaf || suppressVe c p.entry)
  | .stop p => .violation (!p.entry.leaf || suppressVe c p.entry)
  | .poison => .poison

/-- Where an operand of a guest-side function is: host address, HKID, uncacheable by the Shared EPT (R244). -/
structure GuestOperand where
  hpa : Nat
  hkid : Nat
  uc : Bool
  deriving DecidableEq, Repr

/-- GuestGpa(gpa, size, access) (R265). The record of an EPT misconfiguration has instruction length 0:
DESIGN CHOICE (log entry 33). -/
def guestGpa (s : State) (t : Tdr) (c : Tdcs) (p : Tdvps) (gpa : Nat) (kind : AccessKind) : GFn GuestOperand :=
  let x := flowViolation kind gpa
  if c.privateGpa gpa then
    match privateWalk s c t.hkid gpa with
    | .ok hpa _ => .ok ⟨hpa, t.hkid, false⟩
    | .violation false => .error (.ve x)
    | .violation true => .error (.tdExit x 0)
    | .poison => .error .unbreakable
  else
    match sharedWalk s c p gpa kind with
    | .ok hpa hkid _ uc _ => .ok ⟨hpa, hkid, uc⟩
    | .violation false _ => .error (.ve x)
    | .violation true _ => .error (.tdExit x 0)
    | .misconfig => .error (.tdExit { VmExit.plain 49 with gpa := w64 gpa } 0)
    | .poison => .error .unbreakable

/-- The effective memory type is uncacheable: by the Shared EPT, or by the MTRRs for a shared HKID (R244). -/
def effectiveUc (p : Platform) (uc : Bool) (hkid a n : Nat) : Bool :=
  uc || (!isPrivateHkid p hkid && p.uncacheable a n)

/-- The module can read or write `n` bytes at an address: private memory is always there (R271). -/
def guestBacked (p : Platform) (hkid a n : Nat) : Bool := isPrivateHkid p hkid || p.backed a n

/-- `n` bytes of a guest-side operand; poison, or no memory, is the module's unbreakable shutdown (R271). -/
def guestRead (s : State) (o : GuestOperand) (n : Nat) : GFn (List Byte) := do
  let uc := effectiveUc s.plat o.uc o.hkid o.hpa n
  greq (guestBacked s.plat o.hkid o.hpa n && !poisonedTyped s uc o.hkid o.hpa n) .unbreakable
  pure (readTyped s uc o.hkid o.hpa n)

/-- Write a guest-side operand with its memory type. -/
def guestWrite (s : State) (o : GuestOperand) (bs : List Byte) : State :=
  writeTyped s (effectiveUc s.plat o.uc o.hkid o.hpa bs.length) o.hkid o.hpa bs

/-- Acquire a lock or complete with TDX_OPERAND_BUSY. -/
def guestLock (s : State) (id : LockId) (m : LockMode) (operand : Nat) : GFn Unit := do
  let _ ← gOr (acquire s.locks id m) (gbad Status.operandBusy operand)
  pure ()

end Sys2Proof.Machine
end

