-- ==== Sys2Proof/Machine/Apic.lean ====
section
/-! DEFINITION. The virtual APIC page as the CPU uses it: registers, processor-priority and interrupt-delivery
virtualisation, posted interrupts (12_state_vcpu.md rule R166, 45_cpu_virt.md rules R612 to R614, 60_exceptions.md rule
R726; the mechanics are the SDM's, log entry 31). -/

namespace Sys2Proof.Machine

/-! ## Registers of the page -/

/-- The 32-bit register at a page offset. -/
def Tdvps.apicReg (v : Tdvps) (offset : Nat) : Word := regGet v.vapic (offset / 8) &&& 0xFFFFFFFF

/-- Write the 32-bit register at a page offset. -/
def Tdvps.setApicReg (v : Tdvps) (offset : Nat) (x : Word) : Tdvps :=
  { v with vapic := regSet v.vapic (offset / 8) (mergeMask (regGet v.vapic (offset / 8)) x 0xFFFFFFFF) }

/-- Offset of VTPR. -/
def vtpr : Nat := 0x80

/-- Offset of VPPR. -/
def vppr : Nat := 0xA0

/-- Offset of the first of the eight VISR registers. -/
def visr : Nat := 0x100

/-- Offset of the first of the eight VIRR registers. -/
def virr : Nat := 0x200

/-- Bit `n` of a 256-bit register that is spread over eight 32-bit registers 16 bytes apart. -/
def Tdvps.apicBit (v : Tdvps) (base n : Nat) : Bool := bit (v.apicReg (base + n / 32 * 16)) (n % 32)

/-- Set or clear bit `n` of a 256-bit register. -/
def Tdvps.setApicBit (v : Tdvps) (base n : Nat) (on : Bool) : Tdvps :=
  let old := v.apicReg (base + n / 32 * 16)
  v.setApicReg (base + n / 32 * 16) (mergeMask old (bitAt on (n % 32)) (bitAt true (n % 32)))

/-- The highest bit below `n` that is set in a 256-bit register, or 0. -/
def Tdvps.highestBelow (v : Tdvps) (base : Nat) : Nat → Nat
  | 0 => 0
  | n + 1 => if v.apicBit base n then n else v.highestBelow base n

/-- RVI, the requesting virtual interrupt (R175). -/
def Tdvps.rvi (v : Tdvps) : Nat := bitsOf (v.vm Vmcs.guestInterruptStatus) 7 0

/-- SVI, the servicing virtual interrupt (R175). -/
def Tdvps.svi (v : Tdvps) : Nat := bitsOf (v.vm Vmcs.guestInterruptStatus) 15 8

/-- Set RVI and SVI. -/
def Tdvps.setIntrStatus (v : Tdvps) (rvi svi : Nat) : Tdvps :=
  v.setVm Vmcs.guestInterruptStatus (w64 (svi % 256 * 256 + rvi % 256))

/-! ## Virtualisation of the priorities -/

/-- PPR virtualisation: VPPR from VTPR and SVI. -/
def Tdvps.virtualPpr (v : Tdvps) : Tdvps :=
  let tpr := bitsOf (v.apicReg vtpr) 7 0
  v.setApicReg vppr (w64 (if v.svi / 16 ≤ tpr / 16 then tpr else v.svi / 16 * 16))

/-- A write of VTPR: TPR virtualisation. -/
def Tdvps.writeTpr (v : Tdvps) (x : Word) : Tdvps := (v.setApicReg vtpr (x &&& 0xFF)).virtualPpr

/-- EOI virtualisation. The EOI-exit bitmaps are 0 and read-only (R181): no VM exit. -/
def Tdvps.writeEoi (v : Tdvps) : Tdvps :=
  let v1 := v.setApicBit visr v.svi false
  (v1.setIntrStatus v.rvi (v1.highestBelow visr 256)).virtualPpr

/-- Request a virtual interrupt: the bit of VIRR, and RVI the maximum. -/
def Tdvps.requestVirtual (v : Tdvps) (vector : Nat) : Tdvps :=
  let v1 := v.setApicBit virr vector true
  v1.setIntrStatus (max v.rvi vector) v.svi

/-- Blocking by STI (bit 0) or MOV SS (bit 1) of the interruptibility state. -/
def Tdvps.shadowed (v : Tdvps) : Bool := bitsOf (v.vm Vmcs.interruptibility) 1 0 != 0

/-- The guest can take its highest pending virtual interrupt at this instruction boundary (R614). -/
def Tdvps.canDeliver (v : Tdvps) : Bool := v.vmxip && interruptFlag (v.vm Vmcs.rflags) && !v.shadowed

/-- Virtual-interrupt delivery of RVI. -/
def Tdvps.deliverVirtual (v : Tdvps) : Tdvps :=
  let n := v.rvi
  let v1 := (v.setApicBit visr n true).setApicBit virr n false
  let v2 := (v1.setIntrStatus (v1.highestBelow virr 256) n).setApicReg vppr (w64 (n / 16 * 16))
  v2.deliver n none

/-! ## Posted interrupts (R614) -/

/-- OR the request words of a posted-interrupt descriptor into VIRR: `bs` is its first 32 bytes, 4 bytes a register. -/
def orRequests (v : Tdvps) (bs : List Byte) : List Nat → Tdvps
  | [] => v
  | k :: ks =>
    orRequests (v.setApicReg (virr + 16 * k) (v.apicReg (virr + 16 * k) ||| w64 (fieldAt bs (4 * k) 4))) bs ks

/-- The highest requested vector of a descriptor, or 0. -/
def highestRequest (bs : List Byte) : Nat → Nat
  | 0 => 0
  | n + 1 => if fieldAt bs 0 32 / 2 ^ n % 2 = 1 then n else highestRequest bs n

/-- VIRR and RVI after the descriptor has been processed. -/
def Tdvps.acceptPosted (v : Tdvps) (bs : List Byte) : Tdvps :=
  let v1 := orRequests v bs (List.range 8)
  v1.setIntrStatus (max v1.rvi (highestRequest bs 256)) v1.svi

/-- The address of the descriptor with its HKID (R181). -/
def Tdvps.pid (v : Tdvps) : Nat := (v.vm Vmcs.pidAddress).toNat

/-- Posted-interrupt processing: bit ON (bit 256) is cleared, the requests move to VIRR, no VM exit. -/
def processPosted (s : State) (v : Nat) (p : Tdvps) : State :=
  let h := hkidOf s.plat p.pid
  let a := addrOf s.plat p.pid
  let bs := readBytes s h a 64
  let on := leBytes 1 (fieldAt bs 32 1 / 2 * 2)
  (writeCached s h a (List.replicate 32 0 ++ on)).modVp v fun p => p.acceptPosted bs

/-- The posted-interrupt notification vector arrives: "process posted interrupts" is on and the vector matches
(R177, R181). -/
def Tdvps.isNotification (v : Tdvps) (vector : Nat) : Bool :=
  bit (v.vm Vmcs.pinbased) 7 && v.vm Vmcs.pirVector == w64 vector

end Sys2Proof.Machine
end

