-- ==== Sys2Proof/Machine/GuestRegs.lean ====
section
/-! DEFINITION. What the guest's operations share: CPL, completion of an instruction, exceptions that the CPU raises,
the virtual TSC, the homes of the guest's MSRs, the state a natively executed instruction may change (45_cpu_virt.md
rules R570, R610, R630; 60_exceptions.md rules R708, R711). -/

namespace Sys2Proof.Machine

/-! ## Completion and exceptions -/

/-- The guest's CPL: the DPL of SS, bits 6:5 of its access rights. -/
def Tdvps.cpl (v : Tdvps) : Nat := bitsOf (v.vm 0x4818) 6 5

/-- An instruction completes: blocking by STI and MOV SS ends, the zero-step counters start again (R746), the monitor trap
flag counts (R642). -/
def Tdvps.retire (v : Tdvps) : Tdvps :=
  (v.setVm Vmcs.interruptibility (v.vm Vmcs.interruptibility &&& ~~~3)).progress.trace

/-- RIP past an instruction of `n` bytes. -/
def Tdvps.advance (v : Tdvps) (n : Nat) : Tdvps := v.setVm Vmcs.rip (v.vm Vmcs.rip + w64 n)

/-- An instruction of `n` bytes completes. -/
def Tdvps.next (v : Tdvps) (n : Nat) : Tdvps := (v.advance n).retire

/-- #UD by the CPU. -/
def cpuUd (s : State) (v : Nat) (p : Tdvps) : State := cpuException s v p 6 none 0

/-- #GP(0) by the CPU. -/
def cpuGp (s : State) (v : Nat) (p : Tdvps) : State := cpuException s v p 13 (some 0) 0

/-- A VM exit that the module emulates: the exit is recorded, the effect applied, RIP advanced, the guest resumed
(R570, Emulated). -/
def emulated (s : State) (v : Nat) (x : VmExit) (f : Tdvps → Tdvps) : State :=
  serveExit s v (s.modVp v fun p => ((f (recordExit p x)).next x.instrLength.toNat).entering)

/-- The exit record of an instruction (R702, R710). -/
def InstrInfo.exit (i : InstrInfo) (reason : Nat) : VmExit :=
  { VmExit.plain (w64 reason) with
    qualification := i.qualification, gla := i.gla, instrLength := w64 i.length, instrInfo := i.info }

/-! ## Results in register pairs -/

/-- The low half of a word, zero-extended. -/
def lo32 (x : Word) : Word := x &&& 0xFFFFFFFF

/-- The high half of a word. -/
def hi32 (x : Word) : Word := x >>> 32

/-- EDX:EAX := x, the upper halves cleared. -/
def Gprs.setPair (g : Gprs) (x : Word) : Gprs := { g with rax := lo32 x, rdx := hi32 x }

/-- EDX:EAX as an operand. -/
def Gprs.pair (g : Gprs) : Word := (g.rdx <<< 32) ||| lo32 g.rax

/-- EDX:EAX := x in the guest. -/
def Tdvps.setPair (v : Tdvps) (x : Word) : Tdvps := { v with gprs := v.gprs.setPair x }

/-! ## The virtual TSC (R630) -/

/-- VirtTsc, as the CPU computes it from the TD VMCS multiplier (48-bit fraction) and offset. -/
def Tdvps.virtTsc (v : Tdvps) (tsc : Word) : Word :=
  w64 (tsc.toNat * (v.vm Vmcs.tscMultiplier).toNat / 2 ^ 48) + v.vm Vmcs.tscOffset

/-! ## Homes of the MSRs (R170, R174, R205; XSAVE layouts: log entry 32) -/

/-- Where a guest MSR lives. -/
inductive MsrHome where
  /-- a TD VMCS field -/
  | vmcs (field : Nat)
  /-- the MSR table of the TDVPS (R170) -/
  | tdvps (index : Nat)
  /-- an element of a component of the XSAVES area -/
  | xsave (component unit : Nat)
  /-- a register of the virtual APIC page -/
  | apic (offset : Nat)
  /-- the virtual time-stamp counter -/
  | tsc
  /-- the command and status registers 0x390 and 0x391, which act on 0x38E -/
  | statusCommand (set : Bool)
  /-- a write-only command without state -/
  | command
  /-- no copy of the guest's own: the logical processor's -/
  | native
  deriving DecidableEq, Repr

/-- The MSRs with a TD VMCS field (R174). -/
def msrVmcsHomes : List (Nat × Nat) :=
  [(0x174, Vmcs.sysenterCs), (0x175, Vmcs.sysenterEsp), (0x176, Vmcs.sysenterEip), (0x1D9, Vmcs.debugctl),
   (0x277, Vmcs.pat), (0x38F, Vmcs.perfGlobalCtrl), (0x570, Vmcs.rtitCtl), (0x6A2, Vmcs.sCet),
   (0x6A8, Vmcs.intSspTable), (0x6E1, Vmcs.pkrs), (0x14CE, Vmcs.lbrCtl), (0xC0000080, Vmcs.efer),
   (0xC0000100, 0x680E), (0xC0000101, 0x6810)]

/-- The MSRs that are extended state: index ranges, the component, the element of the first index and the distance of
the elements of the next ones. -/
def msrXsaveHomes : List (Nat × Nat × Nat × Nat × Nat) :=
  [(0x560, 0x561, 8, 1, 1), (0x571, 0x572, 8, 3, 1), (0x580, 0x587, 8, 5, 1), (0x6A0, 0x6A0, 11, 0, 1),
   (0x6A7, 0x6A7, 11, 1, 1), (0x6A4, 0x6A6, 12, 0, 1), (0x985, 0x985, 14, 4, 1), (0x986, 0x989, 14, 0, 1),
   (0x98A, 0x98A, 14, 5, 1), (0x1500, 0x151F, 15, 5, 3), (0x1600, 0x161F, 15, 6, 3), (0x1200, 0x121F, 15, 7, 3)]

/-- The home of an MSR. -/
def msrHome (idx : Nat) : MsrHome :=
  match tblGet msrVmcsHomes idx with
  | some f => .vmcs f
  | none =>
    match msrXsaveHomes.find? fun r => decide (r.1 ≤ idx) && decide (idx ≤ r.2.1) with
    | some r => .xsave r.2.2.1 (r.2.2.2.1 + (idx - r.1) * r.2.2.2.2)
    | none =>
      if idx = 0x10 then .tsc
      else if idx = 0x49 ∨ idx = 0x10B then .command
      else if idx = 0x390 then .statusCommand false
      else if idx = 0x391 then .statusCommand true
      else if 0xC1 ≤ idx ∧ idx ≤ 0xC8 then .tdvps (idx - 0xC1 + 0x4C1)
      else if 0x800 ≤ idx ∧ idx ≤ 0x8FF then .apic ((idx - 0x800) * 16)
      else if vpMsrRows.any (fun r => decide (r.1 ≤ idx) && decide (idx ≤ r.2.1)) then .tdvps idx
      else if 0x1200 ≤ idx ∧ idx ≤ 0x16FF then .tdvps idx
      else .native

/-- The element of an extended-state component in XBUFF. -/
def xsaveElement (p : Tdvps) (component unit : Nat) : Nat := Config.xsaveOffsetUnits p.xfam component + unit

/-- MSRs whose RDMSR the CPU refuses with #GP(0): write-only commands, EOI and SELF_IPI (R612, R660). -/
def rdmsrRefused (idx : Nat) : Bool := idx == 0x49 || idx == 0x10B || idx == 0x80B || idx == 0x83F

/-- The value of a native RDMSR; `tag` names the free value of a read that no rule gives. -/
def readNativeMsr (s : State) (p : Tdvps) (idx : Nat) : Word :=
  match msrHome idx with
  | .vmcs f => p.vm f
  | .tdvps i => regGet p.msrs i
  | .xsave c u => regGet p.xbuff (xsaveElement p c u)
  | .apic o => p.apicReg o
  | .tsc => p.virtTsc s.tsc
  | .statusCommand _ => Config.freeWord s.tick 16
  | .command => Config.freeWord s.tick 16
  | .native => Config.nativeMsr s.curLp idx

/-- MSRs whose WRMSR the CPU refuses with #GP(0) whatever the value: read-only ones (R612, R666). That 0x38E and 0x392
(R661) and the reserved 0x809, 0x80C and 0x80E (R612, R665) are among them is the model's choice (log entry 61). -/
def wrmsrRefused (idx : Nat) : Bool :=
  idx == 0x10A || idx == 0x38E || idx == 0x392
    || (decide (0x800 ≤ idx) && decide (idx ≤ 0x8FF) && idx != 0x808 && idx != 0x80B && idx != 0x83F)

/-- The virtual-APIC values whose reserved bits the CPU refuses: TPR and SELF_IPI are 8 bits, EOI must be 0 (R612). -/
def apicWriteIllegal (idx : Nat) (x : Word) : Bool :=
  ((idx == 0x808 || idx == 0x83F) && decide (255 < x)) || (idx == 0x80B && x != 0)

/-- How the CPU checks the value of a WRMSR (R660). The formats of the registers are the SDM's (log entry 78). -/
inductive MsrCheck where
  | any
  /-- these bits must be 0 -/
  | reserved (bits : Word)
  /-- a canonical linear address; these low bits must be 0 -/
  | address (low : Word)
  /-- the eight memory types of IA32_PAT -/
  | pat
  /-- IA32_U_CET and IA32_S_CET -/
  | cet
  /-- the format depends on the processor: `Config.msrValueRefused` -/
  | platform
  deriving DecidableEq, Repr

/-- The MSRs whose format the architecture fixes: index ranges. The x2APIC registers have a check of their own. -/
def msrChecks : List (Nat × Nat × MsrCheck) :=
  [(0x49, 0x49, .reserved (~~~1)), (0xC1, 0xC8, .any), (0xE1, 0xE1, .reserved 0xFFFFFFFF00000002),
   (0x10B, 0x10B, .reserved (~~~1)), (0x174, 0x174, .any), (0x175, 0x176, .address 0), (0x277, 0x277, .pat),
   (0x572, 0x572, .reserved 0x1F), (0x580, 0x587, .address 0), (0x600, 0x600, .address 0), (0x6A0, 0x6A0, .cet),
   (0x6A2, 0x6A2, .cet), (0x6A4, 0x6A7, .address 3), (0x6A8, 0x6A8, .address 0),
   (0x6E1, 0x6E1, .reserved 0xFFFFFFFF00000000), (0x800, 0x8FF, .any), (0x985, 0x985, .any), (0x986, 0x986, .address 0),
   (0x987, 0x987, .address 6), (0x988, 0x988, .reserved 0xFFFFFF0000000000), (0x989, 0x989, .address 0x3F),
   (0x98A, 0x98A, .address 0xE), (0xC0000081, 0xC0000081, .any), (0xC0000082, 0xC0000082, .address 0),
   (0xC0000084, 0xC0000084, .reserved 0xFFFFFFFF00000000), (0xC0000100, 0xC0000102, .address 0),
   (0xC0000103, 0xC0000103, .reserved 0xFFFFFFFF00000000)]

/-- The check of an MSR. -/
def msrCheck (idx : Nat) : MsrCheck :=
  match msrChecks.find? fun r => decide (r.1 ≤ idx) && decide (idx ≤ r.2.1) with
  | some r => r.2.2
  | none => .platform

/-- Linear addresses have 57 bits on a CPU that has CR4.LA57 (bit 12), else 48. -/
def Platform.linearBits (p : Platform) : Nat := if bit p.nativeCr4Allowed 12 then 57 else 48

/-- A canonical linear address: its upper bits are copies of the highest address bit. -/
def canonical (p : Platform) (x : Word) : Bool :=
  decide (x.toNat < 2 ^ (p.linearBits - 1)) || decide (2 ^ 64 - 2 ^ (p.linearBits - 1) ≤ x.toNat)

/-- The memory type of one entry of IA32_PAT. -/
def patTypeOk (n : Nat) : Bool := n == 0 || n == 1 || decide (4 ≤ n) && decide (n ≤ 7)

/-- Does a value pass the architectural check. -/
def MsrCheck.fits (p : Platform) (x : Word) : MsrCheck → Bool
  | .any | .platform => true
  | .reserved bits => x &&& bits == 0
  | .address low => canonical p x && x &&& low == 0
  | .pat => (List.range 8).all fun i => patTypeOk (bitsOf x (8 * i + 7) (8 * i))
  | .cet => canonical p x && x &&& 0x3C0 == 0 && !(bit x 10 && bit x 11)

/-- Does the value fit the MSR, as far as the architecture fixes its format. -/
def msrFits (p : Platform) (idx : Nat) (x : Word) : Bool := (msrCheck idx).fits p x

/-- The CPU refuses a WRMSR with #GP(0): a register that is not writable, a reserved bit, an address that is not canonical
(R612, R660, R666). -/
def wrmsrIllegal (p : Platform) (idx : Nat) (x : Word) : Bool :=
  wrmsrRefused idx || apicWriteIllegal idx x || !msrFits p idx x
    || (msrCheck idx == .platform && Config.msrValueRefused idx x)

/-- A write of a virtualised x2APIC register (R612, R613). -/
def Tdvps.writeApicMsr (p : Tdvps) (offset : Nat) (x : Word) : Tdvps :=
  if offset = vtpr then p.writeTpr x
  else if offset = 0xB0 then p.writeEoi
  else
    let p1 := p.setApicReg offset (x &&& 0xFF)
    if 16 ≤ bitsOf x 7 0 then p1.requestVirtual (bitsOf x 7 0) else p1

/-- The effect of a native WRMSR on the guest's registers. An MSR with no copy of the guest's own, 0x345 among them,
stores nothing: R666 does not say which bits of it are the CPU's to write (log entry 62). A write of IA32_PMCx (0xC1 to
0xC8) stores the whole value in the guest's counter: the source states no width or sign extension (log entry 75). Of
IA32_SYSENTER_CS the low 32 bits are stored, the width of its VMCS field (R189): DESIGN CHOICE (log entry 80). -/
def writeNativeMsr (p : Tdvps) (idx : Nat) (x : Word) : Tdvps :=
  match msrHome idx with
  | .vmcs f => p.setVm f (if f = Vmcs.sysenterCs then lo32 x else x)
  | .tdvps i => { p with msrs := regSet p.msrs i x }
  | .xsave c u => { p with xbuff := regSet p.xbuff (xsaveElement p c u) x }
  | .apic o => p.writeApicMsr o x
  | .statusCommand true => { p with msrs := regSet p.msrs 0x38E (regGet p.msrs 0x38E ||| x) }
  | .statusCommand false => { p with msrs := regSet p.msrs 0x38E (regGet p.msrs 0x38E &&& ~~~x) }
  | .tsc | .command | .native => p

/-! ## What a natively executed instruction may change (R570, D77) -/

/-- The fields of the TD VMCS that hold guest registers which no rule virtualises: selectors, limits, access rights,
bases, RSP, pending debug exceptions, SSP, and the blocking bits 1:0 of the interruptibility state. CR3 and DR7 have
operations of their own. -/
def guestOwnedField (field : Nat) (x : Word) : Bool :=
  (decide (0x800 ≤ field) && decide (field ≤ 0x80E) && field % 2 == 0)
    || (decide (0x4800 ≤ field) && decide (field ≤ 0x4822) && field % 2 == 0)
    || (decide (0x6806 ≤ field) && decide (field ≤ 0x681C) && field % 2 == 0 && field != Vmcs.dr7)
    || field == Vmcs.pendingDebug || field == Vmcs.ssp
    || (field == Vmcs.interruptibility && decide (x ≤ 2))

/-- A base that must be canonical: those of FS, GS, LDTR, TR, GDTR and IDTR (log entry 78). -/
def canonicalBase (field : Nat) : Bool := decide (0x680E ≤ field) && decide (field ≤ 0x6818)

/-- Is an MSR Native in the WRMSR direction for a TD (R660). -/
def msrNativeFor (c : Tdcs) (idx : Nat) : Bool := (msrRow idx).wr.noExit c

/-- May the CPU change an MSR by itself: Native for the TD, and with a home outside the virtual APIC page. -/
def msrSelfChanging (c : Tdcs) (idx : Nat) : Bool :=
  ((msrRow idx).rd.noExit c) &&
    match msrHome idx with
    | .tdvps _ | .xsave _ _ => true
    | .vmcs f => f == Vmcs.rtitCtl || f == Vmcs.lbrCtl || f == Vmcs.perfGlobalCtrl
    | _ => false

/-- The extended state that an instruction can change: the components that XCR0 or IA32_XSS enable, within XFAM
(R570). -/
def Tdvps.enabledExt (p : Tdvps) : Word := (p.xcr0 ||| regGet p.msrs 0xDA0) &&& p.xfam

/-- An element of an enabled component (R570, R205). -/
def xbuffElementOk (p : Tdvps) (i : Nat) : Bool :=
  decide (i < Config.xsaveUnits p.xfam) && (xsaveComponent p.xfam i).any fun k => bit p.enabledExt k

/-- One such change; a change that is not the guest's to make does not happen (R570). -/
def applyNative (plat : Platform) (c : Tdcs) (p : Tdvps) : NativeWrite → Tdvps
  | .gpr r x => { p with gprs := p.gprs.set r x }
  | .rip x => p.setVm Vmcs.rip x
  | .rflags x => p.setVm Vmcs.rflags x
  | .vmcsGuest f x =>
    if guestOwnedField f x && (!canonicalBase f || canonical plat x) then
      p.setVm f (if f = Vmcs.interruptibility then mergeMask (p.vm f) x 3 else x) else p
  | .cr2 x => { p with cr2 := x }
  | .xbuff i x => if xbuffElementOk p i then { p with xbuff := regSet p.xbuff i x } else p
  | .iwk i x => if bit (p.vm Vmcs.cr4) 19 ∧ i < 7 then { p with iwk := regSet p.iwk i x } else p
  | .msr idx x => if msrSelfChanging c idx && msrFits plat idx x then writeNativeMsr p idx x else p

/-- Several changes, first to last. -/
def applyNatives (plat : Platform) (c : Tdcs) : Tdvps → List NativeWrite → Tdvps
  | p, [] => p
  | p, w :: ws => applyNatives plat c (applyNative plat c p w) ws

end Sys2Proof.Machine
end

