-- ==== Sys2Proof/Machine/GuestMem.lean ====
section
/-! DEFINITION. A guest's access to guest-physical memory: reserved bits, cached translations, the two EPTs, EPT
violations and misconfigurations, zero-step counting, poison, bus locks (21_secure_ept.md rules R257, R258;
60_exceptions.md rules R712, R713, R740, R746; 45_cpu_virt.md rules R619, R623). -/

namespace Sys2Proof.Machine

/-- A machine check, or the SMI it was mutated into: with LMCE only this logical processor is hit, without it every
logical processor (R740, R741, R743). -/
def machineCheckHit (s : State) (v : Nat) (x : VmExit) : State :=
  broadcastOthers (guestExit s v x .nonRecoverableTdFatal 0) x

/-- R740. -/
def guestMachineCheck (s : State) (v : Nat) : State := machineCheckHit s v machineCheckExit

/-! ## Zero-step counting (R746) -/

/-- One EPT violation more at this instruction. -/
def Tdvps.countEpf (v : Tdvps) : Tdvps := { v with possiblyEpfStepping := v.possiblyEpfStepping + 1 }

/-- Element `i` of an array is written, and no other; elements beyond the end read 0. -/
def arraySet (l : List Word) (i : Nat) (x : Word) : List Word := (l ++ List.replicate (i + 1 - l.length) 0).set i x

/-- The GPA joins the list, if there is room and it is not yet there: element LAST_EPF_GPA_LIST_IDX is written, the ones
above it stay as they are. -/
def Tdvps.recordEpf (v : Tdvps) (gpa : Word) (size : Nat) : Tdvps :=
  let page := gpa &&& ~~~0xFFF
  if v.lastEpfGpaListIdx < size ∧ page ∉ v.lastEpfGpaList.take v.lastEpfGpaListIdx then
    { v with lastEpfGpaList := arraySet v.lastEpfGpaList v.lastEpfGpaListIdx page,
             lastEpfGpaListIdx := v.lastEpfGpaListIdx + 1 }
  else v

/-- ZeroStepCount, then the TD exit of R712, for an EPT-violation VM exit on a private GPA. -/
def zeroStepExit (s : State) (v : Nat) (p : Tdvps) (c : Tdcs) (x : VmExit) : State :=
  let beyond := decide (s.plat.epfThreshold < p.possiblyEpfStepping + 1)
  let s1 := s.modVp v Tdvps.countEpf
  if beyond && bit c.notifyEnables 0 && p.veInfo.valid == 0 then guestVe s1 v x
  else if beyond then guestExit (s1.modVp v fun p => p.recordEpf x.gpa s.plat.epfGpaListSize) v x .success 0
  else guestExit s1 v x .success 0

/-! ## EPT violations (R712) -/

/-- VE_INFO filled by the CPU: the architectural section only (R710). -/
def VeInfo.byCpu (i : VeInfo) (x : VmExit) : VeInfo :=
  { i with exitReason := 48, valid := 0xFFFFFFFF, exitQualification := x.qualification, gla := x.gla, gpa := x.gpa,
           eptpIndex := 0 }

/-- The record of a guest access's EPT violation. R712 gives it no instruction length or information, which the zero-step
#VE takes over (R710), and leaves bits 12:7 of the qualification to the CPU: all three are free values, DESIGN CHOICE (log
entry 33). -/
def accessViolation (s : State) (kind : AccessKind) (perms : Word) (gla gpa : Nat) (locked : Bool) : VmExit :=
  let x := eptViolationExit kind perms (w64 gla) (w64 gpa)
  { x with
    qualification := mergeMask x.qualification (Config.freeWord s.tick 33) 0x1F80
    instrLength := lo32 (Config.freeWord s.tick 37)
    instrInfo := lo32 (Config.freeWord s.tick 38)
    reason := x.reason ||| bitAt locked 26 }

/-- EptViolation(v, gpa, kind): #VE by the CPU, or a VM exit (R712). A #VE that a debugger intercepts becomes a TD exit
after the CPU has filled VE_INFO, whose VALID field then stays set; the source does not say so, nor what a #VE of the
module's own leaves there (log entry 74). -/
def eptViolation (s : State) (v : Nat) (p : Tdvps) (c : Tdcs) (x : VmExit) (suppress isPrivate : Bool) : State :=
  if !suppress && p.veInfo.valid == 0 then
    let s1 := s.modVp v fun p => { p with veInfo := p.veInfo.byCpu x }
    cpuException s1 v p 20 none 0
  else if isPrivate then zeroStepExit s v p c x
  else guestExit s v x .success 0

/-! ## Cached translations (R258) -/

/-- The PCID: CR3 bits 11:0 when CR4.PCIDE is 1. -/
def Tdvps.pcid (v : Tdvps) : Nat := if bit (v.vm Vmcs.cr4) 17 then bitsOf (v.vm Vmcs.cr3) 11 0 else 0

/-- Does a cached translation apply to a GPA. -/
def tlbMatches (e : TlbEntry) (v : Tdvps) (gpa : Nat) : Bool :=
  asidMatches e v && e.pcid == v.pcid && e.gpa == pageBase gpa e.level

/-- The cached translation of a GPA on the current logical processor that permits an access, if there is one: of several
that match, the newest, a DESIGN CHOICE (R258 lets the CPU use a matching one; log entry 92). -/
def tlbLookup (s : State) (v : Tdvps) (gpa : Nat) (kind : AccessKind) : Option TlbEntry :=
  s.lp.tlb.find? fun e => tlbMatches e v gpa && kind.allowed e.perms

/-- Cache a translation. -/
def tlbFill (s : State) (v : Tdvps) (gpa level hpa hkid : Nat) (shared uc : Bool) (perms : Word) : State :=
  s.modLp fun l =>
    { l with tlb :=
      ⟨bitsOf (v.vm Vmcs.eptp) 51 12 * 4096, (v.vm Vmcs.vpid).toNat, v.pcid, pageBase gpa level, level,
        pageBase hpa level, hkid, shared, uc, perms⟩ :: l.tlb }

/-- How the translation of an access ends. -/
inductive Translation where
  /-- host address, HKID, memory type, and what the CPU may cache: the level, whether the GPA is shared, the
  permissions -/
  | ok (hpa hkid : Nat) (uc : Bool) (fill : Option (Nat × Bool × Word))
  | violation (suppress isPrivate : Bool) (perms : Word)
  | misconfig
  | poison
  deriving DecidableEq, Repr

/-- Translation of a legal GPA: a cached one if the CPU uses it, else a walk (R257 items 2 and 3). -/
def translate (s : State) (t : Tdr) (c : Tdcs) (p : Tdvps) (gpa : Nat) (kind : AccessKind) (useTlb : Bool) :
    Translation :=
  match if useTlb then tlbLookup s p gpa kind else none with
  | some e => .ok (e.hpa + gpa % pageBytes e.level) e.hkid e.uc none
  | none =>
    if c.privateGpa gpa then
      match privateWalk s c t.hkid gpa with
      | .ok hpa level => .ok hpa t.hkid false (some (level, false, 7))
      | .violation sup => .violation sup true 0
      | .poison => .poison
    else
      match sharedWalk s c p gpa kind with
      | .ok hpa hkid level uc perms => .ok hpa hkid uc (some (level, true, perms))
      | .violation sup perms => .violation sup false perms
      | .misconfig => .misconfig
      | .poison => .poison

/-! ## The accesses of an instruction: all are translated before any is performed (R276) -/

/-- The kind of an access. -/
def MemOp.kind : MemOp → AccessKind
  | .read _ => .read
  | .write _ => .write
  | .fetch => .fetch
  | .update _ => .update

/-- The bytes of a part with their translation: `leafUc` is the memory type that the translation gives, `uc` that of the
bytes, by the MTRRs too (R244, R276). -/
structure PlacedPart where
  gpa : Nat
  hpa : Nat
  hkid : Nat
  leafUc : Bool
  uc : Bool
  size : Nat
  fill : Option (Nat × Bool × Word)
  deriving DecidableEq, Repr

/-- An access with its translations. -/
structure PlacedAccess where
  op : MemOp
  parts : List PlacedPart
  deriving DecidableEq, Repr

/-- What ends an instruction before it has any effect. -/
inductive AccessFault where
  | illegalGpa (kind : AccessKind) (gla : Nat)
  | violation (kind : AccessKind) (gla gpa : Nat) (suppress isPrivate : Bool) (perms : Word)
  | misconfig (gpa : Nat)
  | poison
  deriving DecidableEq, Repr

/-- Translate the parts of one access, first to last. -/
def placeParts (s : State) (t : Tdr) (c : Tdcs) (p : Tdvps) (kind : AccessKind) (useTlb : Bool) :
    List MemPart → Except AccessFault (List PlacedPart)
  | [] => .ok []
  | m :: ms =>
    if c.legalGpa m.gpa then
      match translate s t c p m.gpa kind useTlb with
      | .ok hpa hkid uc fill => do
        let rest ← placeParts s t c p kind useTlb ms
        pure (⟨m.gpa, hpa, hkid, uc, effectiveUc s.plat uc hkid hpa m.size, m.size, fill⟩ :: rest)
      | .violation sup priv perms => .error (.violation kind m.gla m.gpa sup priv perms)
      | .misconfig => .error (.misconfig m.gpa)
      | .poison => .error .poison
    else .error (.illegalGpa kind m.gla)

/-- Translate every access of an instruction. -/
def placeAll (s : State) (t : Tdr) (c : Tdcs) (p : Tdvps) (useTlb : Bool) :
    List MemAccess → Except AccessFault (List PlacedAccess)
  | [] => .ok []
  | a :: as => do
    let parts ← placeParts s t c p a.op.kind useTlb a.parts
    let rest ← placeAll s t c p useTlb as
    pure (⟨a.op, parts⟩ :: rest)

/-- The access reads memory. -/
def MemOp.reads : MemOp → Bool
  | .write _ => false
  | .read _ | .fetch | .update _ => true

/-- An access would consume poison (R271). -/
def PlacedAccess.poisoned (s : State) (a : PlacedAccess) : Bool :=
  a.op.reads && a.parts.any fun m => poisonedTyped s m.uc m.hkid m.hpa m.size

/-- The bytes that an access reads, lowest first. -/
def readParts (s : State) (parts : List PlacedPart) : List Byte :=
  parts.flatMap fun m => readTyped s m.uc m.hkid m.hpa m.size

/-- The bytes of a write, split over the parts. -/
def writeParts : State → List PlacedPart → List Byte → State
  | s, [], _ => s
  | s, m :: ms, bs => writeParts (writeTyped s m.uc m.hkid m.hpa (bs.take m.size)) ms (bs.drop m.size)

/-- The number of bytes of an access. -/
def partsSize (parts : List PlacedPart) : Nat := (parts.map (·.size)).sum

/-! ## Atomic operations (R277): on 128 bits, the bytes above the access being dropped by the store -/

/-- A value of an atomic operation. -/
abbrev Wide := BitVec 128

/-- The low `n` bytes of a register. -/
def wideOf (n : Nat) (x : Word) : Wide := (x &&& lowMask (8 * n)).zeroExtend 128

/-- The low `n` bytes of two registers, `hi` above `lo`. -/
def widePair (n : Nat) (hi lo : Word) : Wide := wideOf n hi <<< (8 * n) ||| wideOf n lo

/-- The value of a source operand. -/
def RmwSrc.value (g : Gprs) : RmwSrc → Word
  | .reg r => g.get r
  | .imm x => x

/-- What a LOCK-prefixed arithmetic or logic instruction stores; `carry` is RFLAGS.CF. -/
def AluFn.stored (f : AluFn) (carry : Bool) (old x : Wide) : Wide :=
  let c : Wide := if carry then 1 else 0
  match f with
  | .add => old + x
  | .adc => old + x + c
  | .sub => old - x
  | .sbb => old - x - c
  | .and => old &&& x
  | .or => old ||| x
  | .xor => old ^^^ x

/-- What a LOCK-prefixed bit test stores. -/
def BitFn.stored (f : BitFn) (old : Wide) (i : Nat) : Wide :=
  let b : Wide := 1 <<< i
  match f with
  | .set => old ||| b
  | .reset => old &&& ~~~b
  | .complement => old ^^^ b

/-- The value that an atomic operation on `n` bytes stores. CMPXCHG compares with the accumulator, CMPXCHG8B and
CMPXCHG16B with RDX:RAX and store RCX:RBX, in the width of the access; a bit number is taken modulo that width. -/
def RmwFn.stored (f : RmwFn) (n : Nat) (carry : Bool) (g : Gprs) (old : Wide) : Wide :=
  match f with
  | .xchg r => wideOf n (g.get r)
  | .xadd r => old + wideOf n (g.get r)
  | .cmpxchg r => if old = wideOf n g.rax then wideOf n (g.get r) else old
  | .cmpxchgPair => if old = widePair (n / 2) g.rdx g.rax then widePair (n / 2) g.rcx g.rbx else old
  | .alu f src => f.stored carry old (wideOf n (src.value g))
  | .inc => old + 1
  | .dec => old - 1
  | .neg => -old
  | .not => ~~~old
  | .bitTest f src => f.stored old ((src.value g).toNat % (8 * n))

/-- What an atomic operation leaves in the registers: the old value, for those that return it. -/
def RmwFn.registers (f : RmwFn) (n : Nat) (old : Wide) (g : Gprs) : Gprs :=
  match f with
  | .xchg r | .xadd r => g.set r (old.truncate 64)
  | .cmpxchg _ => if old = wideOf n g.rax then g else g.set .rax (old.truncate 64)
  | .cmpxchgPair =>
    if old = widePair (n / 2) g.rdx g.rax then g
    else (g.set .rax (old.truncate 64 &&& lowMask (4 * n))).set .rdx ((old >>> (4 * n)).truncate 64)
  | .alu _ _ | .inc | .dec | .neg | .not | .bitTest _ _ => g

/-- One access performed: on memory, and on the guest's registers. -/
def performAccess (s : State) (p : Tdvps) (a : PlacedAccess) : State × Tdvps :=
  let n := partsSize a.parts
  match a.op with
  | .fetch => (s, p)
  | .read r => (s, { p with gprs := p.gprs.set r (w64 (leValue (readParts s a.parts))) })
  | .write r => (writeParts s a.parts (leBytes n (p.gprs.get r).toNat), p)
  | .update f =>
    let old := BitVec.ofNat 128 (leValue (readParts s a.parts))
    (writeParts s a.parts (leBytes n (f.stored n (bit (p.vm Vmcs.rflags) 0) p.gprs old).toNat),
      { p with gprs := f.registers n old p.gprs })

/-- The accesses performed, first to last. -/
def performAll : State → Tdvps → List PlacedAccess → State × Tdvps
  | s, p, [] => (s, p)
  | s, p, a :: as => performAll (performAccess s p a).1 (performAccess s p a).2 as

/-- Cache the translations of parts, each with its own memory type: the MTRRs of the bytes accessed are no part of it. -/
def fillParts (s : State) (p : Tdvps) : List PlacedPart → State
  | [] => s
  | m :: ms =>
    fillParts
      (match m.fill with
       | some (level, shared, perms) => tlbFill s p m.gpa level m.hpa m.hkid shared m.leafUc perms
       | none => s)
      p ms

/-! ## Bus locks (R621, R623) -/

/-- "Bus-lock detection" is on and the instruction caused a bus lock (R623). -/
def busLockSeen (p : Tdvps) (busLock : Bool) : Bool := busLock && bit (p.vm Vmcs.secondary) 30

/-- The guest OS traps bus locks: IA32_DEBUGCTL bit 2, above CPL 0 (R621). -/
def Tdvps.trapsBusLock (p : Tdvps) : Bool := bit (p.vm Vmcs.debugctl) 2 && p.cpl != 0

/-- The bus-lock debug exception of an instruction is pending (bit 11), because a trap-like VM exit comes first
(R621). -/
def Tdvps.pendBusLock (p : Tdvps) : Tdvps :=
  if p.trapsBusLock then p.setVm Vmcs.pendingDebug (p.vm Vmcs.pendingDebug ||| 0x800) else p

/-- What follows an instruction that caused a bus lock: the VM exit 74 if the host asked for it, else the guest's #DB
if the guest did (R621, R623). -/
def busLockTrap (s : State) (v : Nat) (p : Tdvps) : State :=
  if bit (p.vm Vmcs.secondary) 30 then guestExit (s.modVp v Tdvps.pendBusLock) v (VmExit.plain 74) .success 0
  else if p.trapsBusLock then cpuException s v p 1 none 0x800
  else s

/-! ## The instruction -/

/-- The #PF error code of a reserved-bit fault: P, W/R, U/S, RSVD, I/D (R711; the other bits are the SDM's). -/
def rsvdErrorCode (p : Tdvps) (kind : AccessKind) : Word :=
  9 ||| bitAt (kind == .write || kind == .update) 1 ||| bitAt (p.cpl == 3) 2 ||| bitAt (kind == .fetch) 4

/-- An instruction that ends at a fault of one of its accesses: no effect but the fault's (R276). -/
def accessFault (s : State) (v : Nat) (c : Tdcs) (p : Tdvps) (locked : Bool) : AccessFault → State
  | .illegalGpa kind gla => cpuException s v p 14 (some (rsvdErrorCode p kind)) (w64 gla)
  | .violation kind gla gpa sup priv perms =>
    eptViolation s v p c (accessViolation s kind perms gla gpa locked) sup priv
  | .misconfig gpa => guestExit s v { VmExit.plain (49 ||| bitAt locked 26) with gpa := w64 gpa } .success 0
  | .poison => guestMachineCheck s v

/-- An instruction all of whose accesses are translated: poison is a machine check; else the accesses are performed,
the other changes made, the instruction completes, and a bus lock traps (R271, R621, R623, R740). -/
def completeAccess (s : State) (v : Nat) (c : Tdcs) (p : Tdvps) (as : List PlacedAccess) (ws : List NativeWrite)
    (length : Nat) (busLock : Bool) : State :=
  if as.any fun a => a.poisoned s then guestMachineCheck s v
  else
    let r := performAll s p as
    let q := applyNatives s.plat c (r.2.next length) ws
    let s1 := r.1.modVp v fun _ => q
    if busLock then busLockTrap s1 v q else s1

/-- MemAccess (R257, R619). That an instruction that faults caches no translation, not even of an access before the faulting
one, is a DESIGN CHOICE (R258 leaves creation to the CPU; log entry 92). -/
def guestAccess (s : State) (v : Nat) (t : Tdr) (c : Tdcs) (p : Tdvps) (as : List MemAccess) (ws : List NativeWrite)
    (length : Nat) (useTlb fillTlb busLock : Bool) : State :=
  match placeAll s t c p useTlb as with
  | .error e => accessFault s v c p (busLockSeen p busLock) e
  | .ok ps =>
    let s1 := if fillTlb then ps.foldl (fun s a => fillParts s p a.parts) s else s
    completeAccess s1 v c p ps ws length busLock

end Sys2Proof.Machine
end

