-- ==== Sys2Proof/Machine/GuestOps.lean ====
section
/-! DEFINITION. The guest's operations (45_cpu_virt.md rule R570): one function per operation, and `guestOp`, which
selects it. -/

namespace Sys2Proof.Machine

/-! ## Instructions that always cause #UD or #VE (R577, R578) -/

/-- The customary VM-exit reason of a #UD instruction; none for SEAMRET, which the CPU resolves itself (R701). -/
def UdInstr.reason : UdInstr → Option Nat
  | .encls => some 60 | .enclv => some 70 | .invept => some 50 | .invvpid => some 53 | .vmclear => some 19
  | .vmfunc => some 59 | .vmlaunch => some 20 | .vmptrld => some 21 | .vmptrst => some 22 | .vmread => some 23
  | .vmresume => some 24 | .vmwrite => some 25 | .vmxoff => some 26 | .vmxon => some 27 | .rsm => some 17
  | .getsec => some 11 | .seamcall => some 76 | .seamret => none

/-- R577. -/
def opUd (s : State) (v : Nat) (p : Tdvps) (i : UdInstr) (x : InstrInfo) : State :=
  match i.reason with
  | some n => guestFault s v (x.exit n) 6 none
  | none => cpuUd s v p

/-- The customary VM-exit reason of a #VE instruction (R578). -/
def VeInstr.reason : VeInstr → Nat
  | .io => 30 | .hlt => 12 | .monitor => 39 | .mwait => 36 | .wbinvd => 54 | .invd => 13 | .vmcall => 18

/-- The architectural privilege check that comes before the VM exit (R578): #GP(0) for HLT, WBINVD and INVD, #UD for
MONITOR and MWAIT at CPL above 0. IN and OUT refused by IOPL or the TSS bitmap are `GuestOp.exception`. -/
def VeInstr.privileged : VeInstr → Option Nat
  | .hlt | .wbinvd | .invd => some 13
  | .monitor | .mwait => some 6
  | .io | .vmcall => none

/-- Is the control on that makes the instruction exit; a debugger may clear those of I/O and MONITOR (R178). -/
def VeInstr.exiting (p : Tdvps) : VeInstr → Bool
  | .io => bit (p.vm Vmcs.procbased) 24
  | .monitor => bit (p.vm Vmcs.procbased) 29
  | _ => true

/-- An I/O instruction or MONITOR that a debugger lets execute natively: IN reads a value of the device's. -/
def nativeIo (s : State) (p : Tdvps) (i : VeInstr) (x : InstrInfo) : Tdvps :=
  if i = .io ∧ bit x.qualification 3 = true then
    { p with gprs := { p.gprs with rax := Config.freeWord s.tick 30 } }.next x.length
  else p.next x.length

/-- R578. -/
def opVe (s : State) (v : Nat) (p : Tdvps) (i : VeInstr) (x : InstrInfo) : State :=
  if p.cpl ≠ 0 ∧ i.privileged = some 13 then cpuGp s v p
  else if p.cpl ≠ 0 ∧ i.privileged = some 6 then cpuUd s v p
  else if i.exiting p then guestVe s v (x.exit i.reason)
  else s.modVp v fun p => nativeIo s p i x

/-- WBNOINVD (R635). -/
def opWbnoinvd (s : State) (v : Nat) (p : Tdvps) (x : InstrInfo) : State :=
  if p.cpl ≠ 0 then cpuGp s v p else guestVe s v (x.exit 54)

/-- PCONFIG: "enable PCONFIG" is the virtual CPUID(7,0).EDX[18] (R579, R633). -/
def opPconfig (s : State) (v : Nat) (p : Tdvps) (x : InstrInfo) : State :=
  if !bit (p.vm Vmcs.secondary) 27 then cpuUd s v p
  else if p.cpl ≠ 0 then cpuGp s v p
  else guestVe s v (x.exit 65)

/-- ENQCMDS: #UD at CPL 0, else #GP(0) (R580). -/
def opEnqcmds (s : State) (v : Nat) (p : Tdvps) : State := if p.cpl = 0 then cpuUd s v p else cpuGp s v p

/-- The counter RDPMC names in ECX: bit 30 a fixed counter, bit 29 the metrics, else a general one (R641). -/
def pmcIndex (ecx : Word) : Option Nat :=
  let n := bitsOf ecx 15 0
  if bit ecx 30 then if n < 4 then some (0x309 + n) else none
  else if bit ecx 29 then some 0x329
  else if n < 8 then some (0x4C1 + n) else none

/-- RDPMC (R635, R641, D81). -/
def opRdpmc (s : State) (v : Nat) (p : Tdvps) (x : InstrInfo) : State :=
  if p.cpl ≠ 0 ∧ bit (p.vm Vmcs.cr4) 8 = false then cpuGp s v p
  else if bit (p.vm Vmcs.procbased) 11 then guestFault s v (x.exit 15) 13 (some 0)
  else
    match pmcIndex p.gprs.rcx with
    | some i => s.modVp v fun p => (p.setPair (regGet p.msrs i)).next x.length
    | none => cpuGp s v p

/-- The trap-like APIC-write VM exit: RIP is already past the instruction (R613). -/
def apicWriteExit (offset : Nat) : VmExit := { VmExit.plain 56 with qualification := w64 (offset % 4096) }

/-- SENDUIPI: the write to the virtual APIC page and the advance of RIP come before the trap-like exit (R613, R635). Which
register is written, and with what, the source does not name (log entry 35). -/
def opSenduipi (s : State) (v : Nat) (p : Tdvps) (length offset : Nat) (x : Word) : State :=
  if bit p.xfam 14 && bit (p.vm Vmcs.cr4) 25 then
    guestVe (s.modVp v fun p => { p with vapic := regSet p.vapic (offset / 8) x }.next length) v (apicWriteExit offset)
  else cpuUd s v p

/-! ## Control registers (R605 to R607) -/

/-- A new CR0: a write to ET, bit 4, is ignored (R605); IA32_EFER.LMA follows CR0.PG (R576). -/
def Tdvps.setCr0 (p : Tdvps) (x : Word) : Tdvps :=
  (p.setVm Vmcs.cr0 (mergeMask x (p.vm Vmcs.cr0) 0x10)).setVm Vmcs.efer (mergeMask (p.vm Vmcs.efer) (bitAt (bit x 31) 10) 0x400)

/-- A write of a control register exits when it would change a masked bit from its shadow (R183, R605). -/
def crExits (mask shadow x : Word) : Bool := (x ^^^ shadow) &&& mask != 0

/-- MOV to CR0, CLTS, LMSW (R605). -/
def opMovToCr0 (s : State) (v : Nat) (p : Tdvps) (x : Word) (i : InstrInfo) : State :=
  let m := p.vm Vmcs.cr0Mask
  if p.cpl ≠ 0 then cpuGp s v p
  else if crExits m (p.vm Vmcs.cr0Shadow) x then
    match cr0Verdict p x with
    | .gp => guestFault s v (i.exit 28) 13 (some 0)
    | .ve => guestVe s v (i.exit 28)
    | .ok => emulated s v (i.exit 28) fun p => p.setCr0 x
  else if cr0Verdict p x = .gp then cpuGp s v p
  else s.modVp v fun p => (p.setCr0 (mergeMask x (p.vm Vmcs.cr0) m)).next i.length

/-- MOV to CR4 (R606): the real register keeps VMXE. -/
def opMovToCr4 (s : State) (v : Nat) (p : Tdvps) (c : Tdcs) (x : Word) (i : InstrInfo) : State :=
  let m := p.vm Vmcs.cr4Mask
  if p.cpl ≠ 0 then cpuGp s v p
  else if crExits m (p.vm Vmcs.cr4Shadow) x then
    match cr4Verdict s.plat c p x with
    | .gp => guestFault s v (i.exit 28) 13 (some 0)
    | .ve => guestVe s v (i.exit 28)
    | .ok => emulated s v (i.exit 28) fun p => p.setVm Vmcs.cr4 (x ||| 0x2000)
  else if cr4Verdict s.plat c p x = .gp then cpuGp s v p
  else s.modVp v fun p => (p.setVm Vmcs.cr4 (mergeMask x (p.vm Vmcs.cr4) m ||| 0x2000)).next i.length

/-- A register loaded, the instruction completed. -/
def loadReg (s : State) (v : Nat) (r : Reg) (x : Word) (length : Nat) : State :=
  s.modVp v fun p => { p with gprs := p.gprs.set r x }.next length

/-- MOV from CR0 (R605). -/
def opMovFromCr0 (s : State) (v : Nat) (p : Tdvps) (r : Reg) (length : Nat) : State :=
  if p.cpl ≠ 0 then cpuGp s v p else loadReg s v r p.guestCr0 length

/-- MOV from CR4 (R606). -/
def opMovFromCr4 (s : State) (v : Nat) (p : Tdvps) (r : Reg) (length : Nat) : State :=
  if p.cpl ≠ 0 then cpuGp s v p else loadReg s v r p.guestCr4 length

/-- The exit of an access to control register `n` by MOV, from (`store`) or to it: bits 3:0 of the qualification are the
register, 5:4 the access type, 11:8 the general register (R710). -/
def crExit (n : Nat) (store : Bool) (r : Reg) (length : Nat) : VmExit :=
  { instrExit 28 length with qualification := w64 (n + (if store then 16 else 0) + 256 * r.id) }

/-- The CR3-target values of the TD VMCS, as many as the count says (R183; only a debugger makes them matter). -/
def Tdvps.cr3Targets (p : Tdvps) : List Word :=
  (List.range (min 4 (p.vm 0x400A).toNat)).map fun i => p.vm (0x6008 + 2 * i)

/-- A value that CR3 cannot hold: bits 62:52, and bit 63 unless CR4.PCIDE is 1 (the SDM's, log entry 68). -/
def cr3Illegal (p : Tdvps) (x : Word) : Bool :=
  bitsOf x 62 52 != 0 || (bit x 63 && !bit (p.vm Vmcs.cr4) 17)

/-- MOV to CR3: Native (R607); a debugger may have set "CR3-load exiting" (R178, R642). -/
def opMovToCr3 (s : State) (v : Nat) (p : Tdvps) (r : Reg) (length : Nat) : State :=
  let x := p.gprs.get r
  if p.cpl ≠ 0 then cpuGp s v p
  else if bit (p.vm Vmcs.procbased) 15 && !p.cr3Targets.contains x then unexpectedExit s v (crExit 3 false r length)
  else if cr3Illegal p x then cpuGp s v p
  else s.modVp v fun p => (p.setVm Vmcs.cr3 (x &&& 0x7FFFFFFFFFFFFFFF)).next length

/-- MOV from CR3. -/
def opMovFromCr3 (s : State) (v : Nat) (p : Tdvps) (r : Reg) (length : Nat) : State :=
  if p.cpl ≠ 0 then cpuGp s v p
  else if bit (p.vm Vmcs.procbased) 16 then unexpectedExit s v (crExit 3 true r length)
  else loadReg s v r (p.vm Vmcs.cr3) length

/-- MOV to CR8: the virtual TPR; a debugger may have set "CR8-load exiting" (R607, R178). -/
def opMovToCr8 (s : State) (v : Nat) (p : Tdvps) (r : Reg) (length : Nat) : State :=
  let x := p.gprs.get r
  if p.cpl ≠ 0 then cpuGp s v p
  else if bit (p.vm Vmcs.procbased) 19 then unexpectedExit s v (crExit 8 false r length)
  else if 15 < x then cpuGp s v p
  else s.modVp v fun p => (p.writeTpr (x <<< 4)).next length

/-- MOV from CR8. -/
def opMovFromCr8 (s : State) (v : Nat) (p : Tdvps) (r : Reg) (length : Nat) : State :=
  if p.cpl ≠ 0 then cpuGp s v p
  else if bit (p.vm Vmcs.procbased) 20 then unexpectedExit s v (crExit 8 true r length)
  else loadReg s v r (w64 (bitsOf (p.apicReg vtpr) 7 4)) length

/-! ## Debug registers (R635, R640, R645; the order of the checks is the SDM's, log entry 68) -/

/-- The debug register that an encoding names: 4 and 5 are 6 and 7. -/
def drNumber (n : Nat) : Nat := if n = 4 then 6 else if n = 5 then 7 else n

/-- Read a debug register. -/
def Tdvps.getDr (p : Tdvps) (n : Nat) : Word :=
  match n with
  | 0 => p.dr0
  | 1 => p.dr1
  | 2 => p.dr2
  | 3 => p.dr3
  | 6 => p.dr6
  | _ => p.vm Vmcs.dr7

/-- Write a debug register; the fixed bits of DR6 and DR7 keep their values. -/
def Tdvps.putDr (p : Tdvps) (n : Nat) (x : Word) : Tdvps :=
  match n with
  | 0 => { p with dr0 := x }
  | 1 => { p with dr1 := x }
  | 2 => { p with dr2 := x }
  | 3 => { p with dr3 := x }
  | 6 => { p with dr6 := (x &&& 0x1E80F) ||| 0xFFFE07F0 }
  | _ => p.setVm Vmcs.dr7 ((x &&& 0xFFFF2BFF) ||| 0x400)

/-- The exit of an access to a debug register: bits 2:0 of the qualification are the register, bit 4 the direction, 11:8
the general register. -/
def drExit (n : Nat) (store : Bool) (r : Reg) (length : Nat) : VmExit :=
  { instrExit 29 length with qualification := w64 (n % 8 + (if store then 16 else 0) + 256 * r.id) }

/-- What comes before an access to a debug register: the exit that a debugger asked for, #UD for DR4 and DR5 under
CR4.DE, the privilege, and general detect, a #DB with bit 13 (R645). -/
def drGuard (s : State) (v : Nat) (p : Tdvps) (n : Nat) (store : Bool) (r : Reg) (length : Nat) : Option State :=
  if bit (p.vm Vmcs.procbased) 23 then some (unexpectedExit s v (drExit n store r length))
  else if (n = 4 ∨ n = 5) ∧ bit (p.vm Vmcs.cr4) 3 = true then some (cpuUd s v p)
  else if p.cpl ≠ 0 then some (cpuGp s v p)
  else if bit (p.vm Vmcs.dr7) 13 then some (cpuException s v p 1 none 0x2000)
  else none

/-- MOV to a debug register. -/
def opMovToDr (s : State) (v : Nat) (p : Tdvps) (n : Nat) (r : Reg) (length : Nat) : State :=
  match drGuard s v p n false r length with
  | some t => t
  | none =>
    if (drNumber n = 6 ∨ drNumber n = 7) ∧ hi32 (p.gprs.get r) ≠ 0 then cpuGp s v p
    else s.modVp v fun p => (p.putDr (drNumber n) (p.gprs.get r)).next length

/-- MOV from a debug register. -/
def opMovFromDr (s : State) (v : Nat) (p : Tdvps) (n : Nat) (r : Reg) (length : Nat) : State :=
  match drGuard s v p n true r length with
  | some t => t
  | none => loadReg s v r (p.getDr (drNumber n)) length

/-! ## MSRs (R610, R620, R666) -/

/-- What the module does about an RDMSR that has exited. -/
inductive MsrAnswer where
  | gp
  | ve
  | value (x : Word)
  deriving DecidableEq, Repr

/-- The RDMSR values of the special rows (R620, R666). -/
def rdmsrSpecial (s : State) (p : Tdvps) (c : Tdcs) (idx : Nat) : Word :=
  if idx = 0x10A then s.plat.archCapabilities &&& 0x37F
  else if idx = 0x1A0 then
    if c.perfmon then s.lp.miscEnable else (s.lp.miscEnable &&& ~~~0x80) ||| 0x1000
  else if idx = 0x345 then
    if !c.perfmon then 0
    else if !bit c.xfam 8 then Config.nativeMsr s.curLp 0x345 &&& ~~~0x10000 else Config.nativeMsr s.curLp 0x345
  else p.vm Vmcs.debugctl &&& ~~~0x2000

/-- The module's decision on an RDMSR (R610). -/
def rdmsrAnswer (s : State) (p : Tdvps) (c : Tdcs) (idx : Nat) : MsrAnswer :=
  match (msrRow idx).rd with
  | .native => .value (readNativeMsr s p idx)
  | .gp => .gp
  | .ve => .ve
  | .gpIf k => if k.holds c then .gp else .value (readNativeMsr s p idx)
  | .gpOrVe k => if k.holds c then .gp else .ve
  | .special => .value (rdmsrSpecial s p c idx)

/-- RDMSR of the index in ECX (R610). -/
def opRdmsr (s : State) (v : Nat) (p : Tdvps) (c : Tdcs) : State :=
  let idx := (lo32 p.gprs.rcx).toNat
  if p.cpl ≠ 0 then cpuGp s v p
  else if !msrExits c 0 idx then
    if rdmsrRefused idx then cpuGp s v p
    else s.modVp v fun q => (q.setPair (readNativeMsr s p idx)).next 2
  else
    match rdmsrAnswer s p c idx with
    | .gp => guestFault s v (instrExit 31 2) 13 (some 0)
    | .ve => guestVe s v (instrExit 31 2)
    | .value x => emulated s v (instrExit 31 2) fun q => q.setPair x

/-- What the module does about a WRMSR that has exited. -/
inductive WrmsrAnswer where
  | gp
  | ve
  | write
  | xss
  | debugctl
  deriving DecidableEq, Repr

/-- The module's decision on a WRMSR (R592, R610, R620, R666). -/
def wrmsrAnswer (plat : Platform) (p : Tdvps) (c : Tdcs) (idx : Nat) (x : Word) : WrmsrAnswer :=
  let native := if wrmsrIllegal plat idx x then WrmsrAnswer.gp else .write
  match (msrRow idx).wr with
  | .native => native
  | .gp => .gp
  | .ve => .ve
  | .gpIf k => if k.holds c then .gp else native
  | .gpOrVe k => if k.holds c then .gp else .ve
  | .special =>
    if idx = 0xDA0 then if xssVerdict p x = .ok then .xss else .gp
    else
      match debugctlVerdict false x with
      | .gp => .gp
      | .ve => .ve
      | .ok => .debugctl

/-- A native WRMSR: the CPU's own checks, the write, the APIC-write VM exit of a self-IPI below 16 (R612, R613,
R660). -/
def nativeWrmsr (s : State) (v : Nat) (p : Tdvps) (idx : Nat) (x : Word) : State :=
  if wrmsrIllegal s.plat idx x then cpuGp s v p
  else
    let s1 := s.modVp v fun q => (writeNativeMsr q idx x).next 2
    if idx = 0x83F ∧ bitsOf x 7 4 = 0 then guestVe s1 v (apicWriteExit 0x3F0) else s1

/-- WRMSR of EDX:EAX to the index in ECX (R610). -/
def opWrmsr (s : State) (v : Nat) (p : Tdvps) (c : Tdcs) : State :=
  let idx := (lo32 p.gprs.rcx).toNat
  let x := p.gprs.pair
  if p.cpl ≠ 0 then cpuGp s v p
  else if !msrExits c 1 idx then nativeWrmsr s v p idx x
  else
    match wrmsrAnswer s.plat p c idx x with
    | .gp => guestFault s v (instrExit 32 2) 13 (some 0)
    | .ve => guestVe s v (instrExit 32 2)
    | .write => emulated s v (instrExit 32 2) fun q => writeNativeMsr q idx x
    | .xss => emulated s v (instrExit 32 2) fun q => { q with msrs := regSet q.msrs 0xDA0 x }
    | .debugctl => emulated s v (instrExit 32 2) fun q => q.setVm Vmcs.debugctl (x &&& ~~~1)

/-! ## CPUID, XSETBV, XGETBV, time (R592, R600, R630) -/

/-- The four registers after CPUID, zero-extended. -/
def Gprs.setCpuid (g : Gprs) (r : CpuidRegs) : Gprs :=
  { g with rax := r.eax.setWidth 64, rbx := r.ebx.setWidth 64, rcx := r.ecx.setWidth 64, rdx := r.edx.setWidth 64 }

/-- The unconditional #VE that TDG.VP.CPUIDVE.SET turns on (R600). -/
def Tdvps.cpuidVe (p : Tdvps) : Bool := if p.cpl = 0 then p.cpuidSupervisorVe else p.cpuidUserVe

/-- CPUID (R600). -/
def opCpuid (s : State) (v : Nat) (p : Tdvps) (c : Tdcs) : State :=
  if p.cpuidVe then guestVe s v (instrExit 10 2)
  else
    match cpuidVirtual s.plat p c (lo32 p.gprs.rax).toNat (lo32 p.gprs.rcx).toNat with
    | some r => emulated s v (instrExit 10 2) fun q => { q with gprs := q.gprs.setCpuid r }
    | none => guestVe s v (instrExit 10 2)

/-- XSETBV (R592). The #UD without CR4.OSXSAVE, before any #GP(0), is the model's: the rule has no such line (log entry
60). -/
def opXsetbv (s : State) (v : Nat) (p : Tdvps) : State :=
  if !bit (p.vm Vmcs.cr4) 18 then cpuUd s v p
  else if p.cpl ≠ 0 then cpuGp s v p
  else
    match xsetbvVerdict p (lo32 p.gprs.rcx) p.gprs.pair with
    | .ok => emulated s v (instrExit 55 3) fun q => { q with xcr0 := p.gprs.pair }
    | _ => guestFault s v (instrExit 55 3) 13 (some 0)

/-- XGETBV: register 0 is XCR0, register 1 XCR0 AND XINUSE, which only the CPU knows (R592, R635). -/
def opXgetbv (s : State) (v : Nat) (p : Tdvps) : State :=
  if !bit (p.vm Vmcs.cr4) 18 then cpuUd s v p
  else if lo32 p.gprs.rcx = 0 then s.modVp v fun q => (q.setPair q.xcr0).next 3
  else if lo32 p.gprs.rcx = 1 then s.modVp v fun q => (q.setPair (q.xcr0 &&& Config.freeWord s.tick 34)).next 3
  else cpuGp s v p

/-- May the guest not read the TSC: CR4.TSD at CPL above 0. -/
def Tdvps.tscRefused (p : Tdvps) : Bool := p.cpl != 0 && bit (p.vm Vmcs.cr4) 2

/-- RDTSC (R630). -/
def opRdtsc (s : State) (v : Nat) (p : Tdvps) : State :=
  if p.tscRefused then cpuGp s v p
  else if bit (p.vm Vmcs.procbased) 12 then unexpectedExit s v (instrExit 16 2)
  else s.modVp v fun q => (q.setPair (q.virtTsc s.tsc)).next 2

/-- RDTSCP (R630): ECX is IA32_TSC_AUX. -/
def opRdtscp (s : State) (v : Nat) (p : Tdvps) : State :=
  if p.tscRefused then cpuGp s v p
  else if bit (p.vm Vmcs.procbased) 12 then unexpectedExit s v (instrExit 51 3)
  else
    s.modVp v fun q =>
      { q with gprs := { q.gprs.setPair (q.virtTsc s.tsc) with rcx := lo32 (regGet q.msrs 0xC0000103) } }.next 3

/-! ## Everything else (R570, R635) -/

/-- A natively executed instruction: the changes it makes, RIP among them. -/
def opOther (s : State) (v : Nat) (p : Tdvps) (c : Tdcs) (ws : List NativeWrite) : State :=
  s.modVp v fun _ => applyNatives s.plat c p.retire ws

/-- UMONITOR: #UD unless "enable user-level wait and pause" is 1 (R635). -/
def opUmonitor (s : State) (v : Nat) (p : Tdvps) (c : Tdcs) (ws : List NativeWrite) : State :=
  if !bit (p.vm Vmcs.secondary) 26 then cpuUd s v p else opOther s v p c ws

/-- The Key Locker instructions but LOADIWKEY: #UD while CR4.KL is 0 (R635). -/
def opKeyLocker (s : State) (v : Nat) (p : Tdvps) (c : Tdcs) (ws : List NativeWrite) : State :=
  if !bit (p.vm Vmcs.cr4) 19 then cpuUd s v p else opOther s v p c ws

/-! ## Instructions that a debugger's control makes exit (R635, R642; reasons, bits and checks are VMX's, log entry 40) -/

/-- The exit reason. -/
def CtlInstr.reason : CtlInstr → Nat
  | .invlpg => 14 | .invpcid => 58 | .pause => 40 | .tableLoad ldt | .tableStore ldt => if ldt then 47 else 46
  | .rdrand => 57 | .rdseed => 61 | .xsaves => 63 | .xrstors => 64 | .umwait => 67 | .tpause => 68 | .loadiwkey => 69

/-- #UD: the instruction is not enabled. -/
def CtlInstr.undefined (p : Tdvps) : CtlInstr → Bool
  | .invpcid => !bit (p.vm Vmcs.secondary) 12
  | .xsaves | .xrstors => !bit (p.vm Vmcs.secondary) 20 || !bit (p.vm Vmcs.cr4) 18
  | .tpause | .umwait => !bit (p.vm Vmcs.secondary) 26
  | .loadiwkey => !bit (p.vm Vmcs.cr4) 19
  | .invlpg | .pause | .tableLoad _ | .tableStore _ | .rdrand | .rdseed => false

/-- #GP(0): not at this CPL; CR4.UMIP and CR4.TSD take part. -/
def CtlInstr.refused (p : Tdvps) : CtlInstr → Bool
  | .invlpg | .invpcid | .tableLoad _ | .xsaves | .xrstors | .loadiwkey => p.cpl != 0
  | .tableStore _ => p.cpl != 0 && bit (p.vm Vmcs.cr4) 11
  | .tpause | .umwait => p.tscRefused
  | .pause | .rdrand | .rdseed => false

/-- The control that makes the instruction exit is set. -/
def CtlInstr.exiting (p : Tdvps) : CtlInstr → Bool
  | .invlpg | .invpcid => bit (p.vm Vmcs.procbased) 9
  | .pause => bit (p.vm Vmcs.procbased) 30
  | .tableLoad _ | .tableStore _ => bit (p.vm Vmcs.secondary) 2
  | .rdrand => bit (p.vm Vmcs.secondary) 11
  | .rdseed => bit (p.vm Vmcs.secondary) 16
  | .xsaves | .xrstors => p.gprs.pair &&& regGet p.msrs 0xDA0 &&& p.vm 0x202C != 0
  | .tpause | .umwait => bit (p.vm Vmcs.procbased) 12
  | .loadiwkey => bit (p.vm Vmcs.tertiary) 0

/-- One of them: the exit of a debugger's control, else executed natively (R635, R642). -/
def opControlled (s : State) (v : Nat) (t : Tdr) (c : Tdcs) (p : Tdvps) (i : CtlInstr) (x : InstrInfo)
    (as : List MemAccess) (ws : List NativeWrite) (useTlb fillTlb : Bool) : State :=
  if i.undefined p then cpuUd s v p
  else if i.refused p then cpuGp s v p
  else if i.exiting p then unexpectedExit s v (x.exit i.reason)
  else guestAccess s v t c p as ws x.length useTlb fillTlb false

/-- IRET also ends virtual-NMI blocking (R725). -/
def opIret (s : State) (v : Nat) (p : Tdvps) (c : Tdcs) (ws : List NativeWrite) : State :=
  let q := applyNatives s.plat c p.retire ws
  s.modVp v fun _ => q.setVm Vmcs.interruptibility (q.vm Vmcs.interruptibility &&& ~~~8)

/-- An exception that the guest's own code raises (R635, R708). #MC makes its VM exit whatever a debugger has set (R740),
and vector 2 is an NMI. -/
def opException (s : State) (v : Nat) (p : Tdvps) (vector : Nat) (error : Option Word) (q : Word) : State :=
  if vector = 18 then guestMachineCheck s v
  else if vector = 2 then guestExit s v { VmExit.plain 0 with intrInfo := 0x80000202 } .success 0
  else cpuException s v p vector error q

/-- The vector and the interruption type of INT3, INTO and INT1: 6, a software exception, and 5, a privileged software
exception; R702 names only types 0, 2 and 3 (the SDM's, log entry 64). -/
def SoftInt.trap : SoftInt → Option (Nat × Nat)
  | .int _ => none
  | .int3 => some (3, 6)
  | .into => some (4, 6)
  | .int1 => some (1, 5)

/-- The exit of an intercepted software exception. -/
def softExit (vector type length : Nat) : VmExit :=
  { VmExit.plain 0 with intrInfo := w64 (0x80000000 + 256 * type + vector), instrLength := w64 length }

/-- INT n, INT3, INTO and INT1: delivered through the guest's IDT, any vector, with RIP past the instruction; the
exception bitmap counts for the last three (R635, R642). INTO does nothing without OF and is #UD in 64-bit mode. -/
def opSoftInt (s : State) (v : Nat) (p : Tdvps) (i : SoftInt) (length : Nat) : State :=
  if i = .into ∧ p.in64 = true then cpuUd s v p
  else if i = .into ∧ bit (p.vm Vmcs.rflags) 11 = false then s.modVp v fun p => p.next length
  else
    match i with
    | .int n => s.modVp v fun p => (p.next length).deliver (n % 256) none
    | i =>
      match i.trap with
      | some (vector, type) =>
        if p.excExits vector none then unexpectedExit s v (softExit vector type length)
        else s.modVp v fun p => (p.next length).deliver vector none
      | none => s

/-- A guest operation on the VCPU `v` with its TD's structures. -/
def guestOp (s : State) (v : Nat) (t : Tdr) (c : Tdcs) (p : Tdvps) (op : GuestOp) : State :=
  match op with
  | .ud i x => opUd s v p i x
  | .ve i x => opVe s v p i x
  | .wbnoinvd x => opWbnoinvd s v p x
  | .pconfig x => opPconfig s v p x
  | .enqcmd => cpuGp s v p
  | .enqcmds => opEnqcmds s v p
  | .rdpmc x => opRdpmc s v p x
  | .senduipi n off x => opSenduipi s v p n off x
  | .movToCr0 x i => opMovToCr0 s v p x i
  | .movToCr4 x i => opMovToCr4 s v p c x i
  | .movFromCr0 r n => opMovFromCr0 s v p r n
  | .movFromCr4 r n => opMovFromCr4 s v p r n
  | .movToCr3 r n => opMovToCr3 s v p r n
  | .movFromCr3 r n => opMovFromCr3 s v p r n
  | .movToCr8 r n => opMovToCr8 s v p r n
  | .movFromCr8 r n => opMovFromCr8 s v p r n
  | .movToDr d r n => opMovToDr s v p d r n
  | .movFromDr d r n => opMovFromDr s v p d r n
  | .rdmsr => opRdmsr s v p c
  | .wrmsr => opWrmsr s v p c
  | .cpuid => opCpuid s v p c
  | .xsetbv => opXsetbv s v p
  | .xgetbv => opXgetbv s v p
  | .rdtsc => opRdtsc s v p
  | .rdtscp => opRdtscp s v p
  | .iret ws => opIret s v p c ws
  | .mem as ws n useTlb fillTlb lock => guestAccess s v t c p as ws n useTlb fillTlb lock
  | .exception n e q => opException s v p n e q
  | .softInt i n => opSoftInt s v p i n
  | .controlled i x as ws useTlb fillTlb => opControlled s v t c p i x as ws useTlb fillTlb
  | .umonitor ws => opUmonitor s v p c ws
  | .enclu => cpuUd s v p
  | .keyLocker ws => opKeyLocker s v p c ws
  | .other ws => opOther s v p c ws

end Sys2Proof.Machine
end

