-- ==== Sys2Proof/Machine/Events.lean ====
section
/-! DEFINITION. Events on a logical processor that runs a guest (60_exceptions.md rules R701, R703, R704, R725, R726,
R740 to R742; 45_cpu_virt.md rules R580, R614, R623, R624, R636, R642), and the step of a guest. -/

namespace Sys2Proof.Machine

/-- The basic reasons of VM exits that the module expects of a production TD (Table of R701). -/
def expectedReasons : List Nat :=
  [0, 1, 2, 3, 5, 6, 8, 9, 10, 11, 12, 13, 15, 17, 18, 19, 20, 21, 22, 23, 24, 25, 26, 27, 28, 30, 31, 32, 36, 39, 48,
   49, 50, 53, 54, 55, 56, 59, 60, 65, 70, 72, 73, 74, 75, 76, 77]

/-- The NMI window is open: an NMI is pending, the guest blocks neither by virtual NMI nor by STI or MOV SS (R725). -/
def Tdvps.nmiWindowOpen (p : Tdvps) : Bool :=
  bit (p.vm Vmcs.procbased) 22 && bitsOf (p.vm Vmcs.interruptibility) 1 0 == 0
    && !bit (p.vm Vmcs.interruptibility) 3

/-- VM exit 8: the module injects the NMI and resumes the guest (R725); the debugger may intercept vector 2 (R642), and
PEND_NMI then stays set: the source does not say that the TD exit clears it (log entry 63). The VM-exit information fields
then hold the composed record, a DESIGN CHOICE (log entry 89). -/
def injectNmiStep (s : State) (v : Nat) : State :=
  serveExit s v
    (if intercepted s v 2 then asyncTdExit s v { VmExit.plain 0 with intrInfo := 0x80000202 } .success 0
     else s.modVp v fun p => (injectNmi (recordExit p (VmExit.plain 8))).entering)

/-- The exit with bit 26 of its reason set when it pre-empts a bus-lock VM exit (R623). -/
def VmExit.locked (x : VmExit) (lock : Bool) : VmExit := { x with reason := x.reason ||| bitAt lock 26 }

/-- A physical interrupt (R703, R726, R742): the notification vector is processed by the CPU, any other is a TD exit. -/
def physicalInterrupt (s : State) (v : Nat) (p : Tdvps) (vector : Nat) (lock : Bool) : State :=
  if p.isNotification vector then
    if poisoned s (hkidOf s.plat p.pid) (addrOf s.plat p.pid) 64 then guestMachineCheck s v
    else processPosted s v p
  else guestExit s v ({ VmExit.plain 1 with intrInfo := w64 (0x80000000 + vector) }.locked lock) .success 0

/-- R741: an SMI that a machine check was mutated into is fatal to the TD. -/
def smiExit (s : State) (v : Nat) (machineCheck lock : Bool) : State :=
  if machineCheck then machineCheckHit s v ({ VmExit.plain 6 with qualification := 1 }.locked lock)
  else guestExit s v ((VmExit.plain 6).locked lock) .success 0

/-- The exit of an SMI after an I/O instruction (R187). -/
def ioSmiExit (q rcx rsi rdi rip : Word) : VmExit :=
  { VmExit.plain 5 with qualification := q, ioRcx := rcx, ioRsi := rsi, ioRdi := rdi, ioRip := rip }

/-- R624, R701. -/
def notificationExit (s : State) (v : Nat) (contextInvalid lock : Bool) : State :=
  guestExit s v ({ VmExit.plain 75 with qualification := bitAt contextInvalid 0 }.locked lock)
    (if contextInvalid then .nonRecoverableTd else .success) 0

/-- R580, R701: the CPU could not translate the PASID. -/
def pasidExit (s : State) (v : Nat) (p : Tdvps) (enqcmds : Bool) : State :=
  if enqcmds = false then guestFault s v (VmExit.plain 72) 13 (some 0)
  else if p.cpl = 0 then guestFault s v (VmExit.plain 73) 6 none
  else guestFault s v (VmExit.plain 73) 13 (some 0)

/-- The events whose VM exit can come before the bus-lock VM exit of an instruction (R623). -/
def preempts (p : Tdvps) : Event → Bool
  | .externalInterrupt n => !p.isNotification n
  | .nmi | .smi _ | .ioSmi _ _ _ _ _ | .initSignal | .tripleFault | .taskSwitch _ _ _ | .machineCheck | .notification _
  | .debugExit _ => true
  | .busLock | .nmiWindow | .virtualInterrupt | .pasidFailure _ | .entryFailure _ _ | .unbreakable | .busLocked _ => false

/-- The control is set that lets the CPU make a VM exit with a basic reason which the module does not expect, where the CPU
chooses whether it happens: PAUSE-loop exiting and a full PML (R642; the reasons and the controls are VMX's, log entry 40). The
exits that such a control makes whenever its condition holds belong to the operations and to `boundaryExits`. -/
def Tdvps.debugExitOn (p : Tdvps) (basic : Nat) : Bool :=
  match basic with
  | 40 => bit (p.vm Vmcs.secondary) 10 && !bit (p.vm Vmcs.procbased) 30 && p.cpl == 0
  | 62 => bit (p.vm Vmcs.secondary) 17
  | _ => false

/-- What the CPU may record of the event whose delivery a task switch was incidental to: nothing, or the event whose
handler was to run next (R636; the format is VMX's, log entry 46). -/
def Tdvps.idtVectoringOk (p : Tdvps) (info error : Word) : Bool :=
  (info == 0 && error == 0) ||
    (bit info 31 && info &&& 0x7FFFF000 == 0 && hi32 info == 0 && [0, 2, 3, 4, 5, 6].contains (bitsOf info 10 8) &&
      (bit info 11 || error == 0) &&
      p.event == some (bitsOf info 7 0, if bit info 11 then some error else none))

/-- The events that come of a guest instruction, or of the delivery of a virtual interrupt: a pending NMI whose window is
open comes before them (R725 (d), D89). -/
def Event.afterNmi : Event → Bool
  | .taskSwitch _ _ _ | .busLock | .ioSmi _ _ _ _ _ | .pasidFailure _ | .virtualInterrupt | .busLocked _ | .debugExit _ => true
  | .externalInterrupt _ | .nmi | .smi _ | .initSignal | .tripleFault | .machineCheck | .notification _ | .nmiWindow
  | .entryFailure _ _ | .unbreakable => false

/-- The events that a pending monitor-trap-flag VM exit comes before: all but a machine check, SMI and INIT (log entry 82). -/
def Event.afterTrap : Event → Bool
  | .taskSwitch _ _ _ | .busLock | .ioSmi _ _ _ _ _ | .pasidFailure _ | .virtualInterrupt | .busLocked _ | .debugExit _
  | .externalInterrupt _ | .nmi | .tripleFault | .notification _ | .nmiWindow => true
  | .smi _ | .initSignal | .machineCheck | .entryFailure _ _ | .unbreakable => false

/-- The events that an open interrupt window comes before: those of a guest instruction, virtual and external interrupts (log
entry 82). -/
def Event.afterIntrWindow : Event → Bool
  | .externalInterrupt _ => true
  | e => e.afterNmi

/-- The VM exits that come before the guest's next instruction (R642, R725). -/
inductive BoundaryExit where
  | monitorTrap
  | nmiWindow
  | interruptWindow
  deriving DecidableEq, Repr

/-- The interrupt window is open: a debugger has set "interrupt-window exiting", RFLAGS.IF is 1, nothing blocks interrupts, and
no event is being delivered (R642, log entry 82). -/
def Tdvps.intrWindowOpen (p : Tdvps) : Bool :=
  bit (p.vm Vmcs.procbased) 2 && bit (p.vm Vmcs.rflags) 9 && bitsOf (p.vm Vmcs.interruptibility) 1 0 == 0 && p.event.isNone

/-- The VM exits that are due before the next instruction, the first of them first (R642, R725; the order is the SDM's, log
entry 82). -/
def Tdvps.boundaryExits (p : Tdvps) : List BoundaryExit :=
  (if p.mtfPending then [.monitorTrap] else []) ++ (if p.nmiWindowOpen then [.nmiWindow] else []) ++
    (if p.intrWindowOpen then [.interruptWindow] else [])

/-- Does a VM exit that is due come before an event. -/
def BoundaryExit.before (e : Event) : BoundaryExit → Bool
  | .monitorTrap => e.afterTrap
  | .nmiWindow => e.afterNmi
  | .interruptWindow => e.afterIntrWindow

/-- Take a VM exit that is due: the NMI is injected; the two that a debugger asked for are TD exits (R642, R725). -/
def takeBoundaryExit (s : State) (v : Nat) : BoundaryExit → State
  | .monitorTrap => unexpectedExit s v (VmExit.plain 37)
  | .nmiWindow => injectNmiStep s v
  | .interruptWindow => unexpectedExit s v (VmExit.plain 7)

/-- Can the event occur now. A VM entry fails only on guest state that the CPU refuses, and a VM exit that no production
control makes happens only where its control is set; both only for a TD under a debugger (R642). A task switch happens
only outside IA-32e mode (R636). -/
def eventEnabled (c : Tdcs) (p : Tdvps) : Event → Bool
  | .externalInterrupt n => decide (n < 256)
  | .taskSwitch _ info error => !p.lma && p.idtVectoringOk info error
  | .busLock => bit (p.vm Vmcs.secondary) 30
  | .notification _ => bit (p.vm Vmcs.secondary) 31
  | .nmiWindow => p.nmiWindowOpen
  | .virtualInterrupt => p.canDeliver
  | .entryFailure n _ => c.debug && (n == 33 || n == 34 || n == 41) && Config.entryRefused n p.vmcs
  | .debugExit x => c.debug && decide (x.reason.toNat < 65536) && !expectedReasons.contains x.basic && p.debugExitOn x.basic
  | .busLocked e => bit (p.vm Vmcs.secondary) 30 && preempts p e && eventEnabled c p e
  | .nmi | .smi _ | .ioSmi _ _ _ _ _ | .initSignal | .tripleFault | .machineCheck | .pasidFailure _ | .unbreakable => true

/-- An event on the VCPU `v`; `lock`: its VM exit pre-empts a bus-lock VM exit, and the guest's own bus-lock #DB stays
pending (R621, R623). -/
def guestEvent (s : State) (v : Nat) (p : Tdvps) (lock : Bool) (e : Event) : State :=
  match e with
  | .externalInterrupt n => physicalInterrupt s v p n lock
  | .nmi => guestExit s v ({ VmExit.plain 0 with intrInfo := 0x80000202 }.locked lock) .success 0
  | .smi mc => smiExit s v mc lock
  | .ioSmi q rcx rsi rdi rip => guestExit s v ((ioSmiExit q rcx rsi rdi rip).locked lock) .success 0
  | .initSignal => guestExit s v ((VmExit.plain 3).locked lock) .success 0
  | .tripleFault => guestExit s v ((VmExit.plain 2).locked lock) .nonRecoverableVcpu 0
  | .taskSwitch q info error => guestExit s v ((taskSwitchExit q info error).locked lock) .success 0
  | .machineCheck => machineCheckHit s v (machineCheckExit.locked lock)
  | .busLock => guestExit (s.modVp v Tdvps.pendBusLock) v (VmExit.plain 74) .success 0
  | .notification bad => notificationExit s v bad lock
  | .nmiWindow => injectNmiStep s v
  | .virtualInterrupt => s.modVp v Tdvps.deliverVirtual
  | .pasidFailure b => pasidExit s v p b
  | .entryFailure n q => unexpectedExit s v (entryFailureExit n q)
  | .debugExit x => unexpectedExit s v (x.locked lock)
  | .unbreakable => unbreakableShutdown s
  | .busLocked e => guestEvent (s.modVp v Tdvps.pendBusLock) v p.pendBusLock true e

/-- The VCPU that the current logical processor runs, with its TD's structures. -/
def runningGuest (s : State) : Option (Nat × Tdr × Tdcs × Tdvps) :=
  match s.lp.curVcpu with
  | none => none
  | some v =>
    match tblGet s.vps v, tblGet s.tdrs (s.ownerOf v), tblGet s.tdcss (s.ownerOf v) with
    | some p, some t, some c => some (v, t, c, p)
    | _, _, _ => none

/-- A guest operation on the current logical processor. A VM exit that is due before the next instruction comes first (R642,
R725, D89). A VCPU in the middle of TDG.MEM.PAGE.ACCEPT executes no other instruction and takes no event (R745). -/
def guestStep (s : State) (op : GuestOp) : Outcome :=
  match lpStop s, runningGuest s with
  | some o, _ => o
  | none, none => .refused .notInGuest
  | none, some (v, t, c, p) =>
    if p.accept.isSome then .refused .notEnabled
    else
      match p.boundaryExits with
      | b :: _ => .next (takeBoundaryExit s v b)
      | [] => .next (guestOp s v t c p op)

/-- An event on the current logical processor, after the VM exits that are due before it (R642, R725, D89). -/
def eventStep (s : State) (e : Event) : Outcome :=
  match lpStop s, runningGuest s with
  | some o, _ => o
  | none, none => .refused .notInGuest
  | none, some (v, _, c, p) =>
    if !(p.accept.isNone && eventEnabled c p e) then .refused .notEnabled
    else
      match p.boundaryExits.find? (BoundaryExit.before e) with
      | some b => .next (takeBoundaryExit s v b)
      | none => .next (guestEvent s v p false e)

end Sys2Proof.Machine
end

