-- ==== Sys2Proof/Machine/HostOps.lean ====
section
/-! DEFINITION. What the host does outside the interface (10_state.md rule R51, 20_memory.md rules R240, R243, R258,
R275) and what the environment does (00_scope.md rules R11 and R21, 70_reset_and_hazards.md rules R770 and R776). -/

namespace Sys2Proof.Machine

/-! ## The host's memory accesses (D61) -/

/-- `n` bytes that the host or a device can use: inside the physical address width, one shared HKID, outside SEAMRR
(R240, R243, R279). -/
def hostAddressOk (p : Platform) (pa n : Nat) : Bool :=
  decide (pa + n ≤ 2 ^ p.maxPa) && !isPrivateHkid p (hkidOf p pa) && decide (addrOf p pa + n ≤ 2 ^ p.addrBits)
    && !overlaps (addrOf p pa) n p.seamrrBase p.seamrrSize

/-- WBINVD of the current logical processor: every entry of its package's or core's caches is written back and
removed. -/
def hostWbinvd (s : State) : State :=
  let sc := s.plat.scopeOf s.curLp
  flushStale (flushEntries s (s.mem.cache.filter fun e => e.2.scope == sc)) sc

/-- WBNOINVD: written back and kept. -/
def hostWbnoinvd (s : State) : State := writeBackScope s (s.plat.scopeOf s.curLp)

/-- PCONFIG of a shared HKID on this package: a key distinct from every earlier one (R51, R272). -/
def hostPconfig (s : State) (hkid : Nat) (integrity : Bool) : State :=
  { s with ket := tblSet s.ket (ketKey s.pkg hkid) ⟨.host, s.nextKey, integrity⟩, nextKey := s.nextKey + 1 }

/-- Change the host's debug register `n`. -/
def Lp.setDr (l : Lp) (n : Nat) (x : Word) : Lp :=
  match n with
  | 0 => { l with dr0 := x }
  | 1 => { l with dr1 := x }
  | 2 => { l with dr2 := x }
  | 3 => { l with dr3 := x }
  | 6 => { l with dr6 := x }
  | _ => { l with dr7 := x }

/-- Change the host's control register `n`. -/
def Lp.setCr (l : Lp) (n : Nat) (x : Word) : Lp :=
  match n with
  | 0 => { l with cr0 := x }
  | 3 => { l with cr3 := x }
  | 4 => { l with cr4 := x }
  | _ => { l with cr8 := x }

/-- INVEPT: the shared translations under an EPTP, whose bits 51:12 count (R188, R258 (d)). -/
def Lp.invept (l : Lp) (eptp : Word) : Lp :=
  { l with tlb := l.tlb.filter fun e => !(e.shared && e.eptp == bitsOf eptp 51 12 * 4096) }

/-- A host operation; none where it is not the host's to do. -/
def hostOp (s : State) : HostOp → Option State
  | .setGpr r x => some (s.modLp fun l => { l with gprs := l.gprs.set r x })
  | .setRsp x => some (s.modLp fun l => { l with rsp := x })
  | .setRip x => some (s.modLp fun l => { l with rip := x })
  | .setRflags x => some (s.modLp fun l => { l with rflags := x })
  | .setExt k x => some (s.modLp fun l => { l with ext := regSet l.ext k x })
  | .setDr n x => some (s.modLp fun l => l.setDr n x)
  | .setCr2 x => some (s.modLp fun l => { l with cr2 := x })
  | .setXcr0 x => some (s.modLp fun l => { l with xcr0 := x })
  | .setCr n x => some (s.modLp fun l => l.setCr n x)
  | .setSeg i x => some (s.modLp fun l => { l with segs := l.segs.set i x })
  | .setGdtr x => some (s.modLp fun l => { l with gdtr := x })
  | .setIdtr x => some (s.modLp fun l => { l with idtr := x })
  | .setMsr i x => some (s.modLp fun l => { l with msrs := regSet l.msrs i x })
  | .setMiscEnable x => some (s.modLp fun l => { l with miscEnable := x })
  | .setTscAdjust x => some (s.modLp fun l => { l with tscAdjust := x })
  | .memRead r pa =>
    if hostAddressOk s.plat pa 8 then
      some (s.modLp fun l => { l with gprs := l.gprs.set r (w64 (leValue (sharedBytes s pa 8))) })
    else none
  | .memWrite pa bs => if hostAddressOk s.plat pa bs.length then some (writeShared s pa bs) else none
  | .clflush pa =>
    if hostAddressOk s.plat pa 1 then some (evict s (addrOf s.plat pa / 64) (hkidOf s.plat pa)) else none
  | .wbinvd => some (hostWbinvd s)
  | .wbnoinvd => some (hostWbnoinvd s)
  | .pconfig h integrity =>
    if h ≠ 0 ∧ h ≤ s.plat.numMkidKeys then some (hostPconfig s h integrity) else none
  | .invept eptp => some (s.modLp fun l => l.invept eptp)

/-- A host operation on the current logical processor; none while it executes the module, in the middle of a TDH.MEM.WR (R433
(b)). -/
def hostStep (s : State) (op : HostOp) : Outcome :=
  match lpStop s with
  | some o => o
  | none =>
    if s.lp.curVcpu.isSome then .refused .notInRoot
    else if s.lp.memWr.isSome then .refused .notEnabled
    else
      match hostOp s op with
      | some s1 => .next s1
      | none => .refused .notTheHosts

/-! ## The environment -/

/-- A read of a line that is not cached allocates a clean entry of what memory answers, poison included (R275). -/
def fillLine (s : State) (line hkid : Nat) : Option State :=
  if (tblGet s.mem.cache (cacheKey line hkid)).isSome then none
  else
    some { s with mem :=
      { s.mem with
        cache := tblSet s.mem.cache (cacheKey line hkid)
          ⟨readBytes s hkid (line * 64) 64, false, linePoison s hkid line, s.plat.scopeOf s.curLp⟩ } }

/-- A line of the PAMT area of a TDMR. -/
def Tdmr.pamtLine (t : Tdmr) (line : Nat) : Bool :=
  inside (line * 64) 64 t.pamt1gBase t.pamt1gSize || inside (line * 64) 64 t.pamt2mBase t.pamt2mSize ||
    inside (line * 64) 64 t.pamt4kBase t.pamt4kSize

/-- The module stores to the line under the HKID: a line of the PAMT, of a TDR, or of another page of its own whose TD has
its keys configured (R250, R270). -/
def moduleStores (s : State) (line hkid : Nat) : Bool :=
  let e := pamtAt s (pageBase (line * 64) 0) 0
  (hkid == s.globalHkid && s.tdmrs.any fun t => t.pamtLine line)
    || (pageHkid s e == some hkid
      && (e.pt == .tdr || (tblGet s.tdrs e.owner).any fun t => t.lifecycle == .keysConfigured))

/-- The module's last store to a line that it can read is still modified in the caches of a scope (R275, log entry 56). -/
def moduleStore (s : State) (line hkid scope : Nat) : Option State :=
  if !s.seamDisabled && s.plat.scopes.contains scope && moduleStores s line hkid && !linePoison s hkid line then
    some { s with mem :=
      { s.mem with
        cache := tblSet s.mem.cache (cacheKey line hkid) ⟨moduleLine s line, true, false, scope⟩ } }
  else none

/-- A stored line no longer matches its MAC or ECC (R272). -/
def corruptLine (s : State) (line : Nat) : State :=
  { s with mem :=
    { s.mem with tags := setTags s.mem.tags line (line + 1) { tagAt s.mem line with bad := true } } }

/-- A logical processor after a platform reset. -/
def resetLps (p : Platform) : List Lp := p.lps.map fun _ => Lp.reset

/-- A platform reset: the state in which the module has just been loaded, memory contents arbitrary, keys gone
(R770, R776). -/
def platformReset (s : State) : State :=
  { State.reset with
    plat := s.plat, curLp := s.curLp, schedule := s.schedule, lps := resetLps s.plat, tsc := s.tsc,
    nextKey := s.nextKey, tick := s.tick }

/-- Every logical processor has been through TDH.SYS.LP.SHUTDOWN, runs no guest and is in no function (R21). -/
def canReload (s : State) : Bool :=
  !s.seamDisabled && s.lps.all fun l => l.seamcallBlocked && l.curVcpu.isNone && l.memWr.isNone && !l.shutdown

/-- Every PAMT area of the listed TDMRs may be modified in a cache. -/
def stalePamt (s : State) : List Tdmr → State
  | [] => s
  | t :: ts =>
    stalePamt
      (((s.addStale t.pamt1gBase t.pamt1gSize s.globalHkid).addStale t.pamt2mBase t.pamt2mSize s.globalHkid).addStale
        t.pamt4kBase t.pamt4kSize s.globalHkid) ts

/-- The control-structure and Secure EPT pages of the listed PAMT entries may be modified in a cache. -/
def stalePages (s : State) : List (Nat × PamtEntry) → State
  | [] => s
  | (a, e) :: es =>
    stalePages (match pageHkid s e with | some h => s.addStale a 4096 h | none => s) es

/-- A new module: all module state as after loading; keys, memory, caches and the host's registers survive (R776), what
the old module wrote among them (R275). -/
def moduleReload (s : State) : State :=
  { State.reset with
    plat := s.plat, curLp := s.curLp, schedule := s.schedule, ket := s.ket
    mem := (stalePamt (stalePages s s.pamt4k) s.tdmrs).mem, tsc := s.tsc,
    entropyOk := s.entropyOk, nextKey := s.nextKey, tick := s.tick,
    lps := s.lps.map fun l => { l with initDone := false, seamcallBlocked := false, lastVcpu := none } }

/-- A machine check while a logical processor executes the module (R751). -/
def moduleMachineCheck (s : State) (i : Nat) : State :=
  { unbreakableShutdown { s with curLp := i } with curLp := s.curLp }

/-- A choice of the environment; none where it is not possible: the TSC only grows (R796), a device reaches only what
the host reaches (R279). -/
def envOp (s : State) : EnvOp → Option State
  | .advanceTsc n => if 0 < n ∧ s.tsc.toNat + n < 2 ^ 64 then some { s with tsc := s.tsc + w64 n } else none
  | .setRaceLost b => some { s with raceLost := b }
  | .dmaWrite pa bs =>
    if hostAddressOk s.plat pa bs.length then some (writeDma s (hkidOf s.plat pa) (addrOf s.plat pa) bs) else none
  | .dmaRead pa n => if hostAddressOk s.plat pa n then some s else none
  | .moduleMachineCheck i => if (s.lpAt i).shutdown then none else some (moduleMachineCheck s i)
  | .setYield i k => some (s.modLpAt i fun l => { l with yieldAt := k })
  | .evictStale line h => Machine.evictStale s line h
  | .moduleStore line h scope => if h < 65536 then Machine.moduleStore s line h scope else none
  | .setEntropy b => some { s with entropyOk := b }
  | .setIntrPending i b => some (s.modLpAt i fun l => { l with intrPending := b })
  | .setApicMode i b => some (s.modLpAt i fun l => { l with apicModeOk := b })
  | .evict line h => if h < 65536 then some (evict s line h) else none
  | .fill line h => if h < 65536 then fillLine s line h else none
  | .dropTlb i k => some (s.modLpAt i fun l => { l with tlb := l.tlb.eraseIdx k })
  | .corrupt line => some (corruptLine s line)
  | .holdLock id m =>
    (acquire s.locks id m).map fun l => { s with locks := l, envLocks := id :: s.envLocks }
  | .dropLock id =>
    if id ∈ s.envLocks then some { s with locks := release s.locks id, envLocks := s.envLocks.erase id } else none
  | .platformReset => some (platformReset s)
  | .moduleReload => if canReload s then some (moduleReload s) else none

/-- A step of the environment. -/
def envStep (s : State) (op : EnvOp) : Outcome :=
  match envOp s op with
  | some s1 => .next s1
  | none => .refused .notEnabled

end Sys2Proof.Machine
end

