-- ==== Sys2Proof/Machine/Tdg.lean ====
section
/-! DEFINITION. The guest-side functions TDG.* (44_tdcall.md rules R541 to R549). -/

namespace Sys2Proof.Machine

/-! ## TDG.MEM.PAGE.ACCEPT (R541, R266) -/

/-- AcceptExit(req, errlvl, st, leaf): the TD exit of R541. The instruction length of its record, 4, is a DESIGN CHOICE (log
entry 33). -/
def acceptExit (req gpa : Nat) (p : SeptPos) : GuestAbort :=
  .tdExit (flowViolation .write gpa) (extQualAccept req p.level p.entry)

/-- The classification of Table 8.3 (R266): the entry of the pending page, or how the function ends. -/
def acceptWalk (s : State) (t : Tdr) (c : Tdcs) (req gpa : Nat) : GFn SeptPos :=
  match septWalk s c t.hkid gpa (some req) with
  | .poison => .error .unbreakable
  | .stop p =>
    if p.entry.leaf && p.entry.state == .present then .error (gbad Status.pageAlreadyAccepted p.level)
    else .error (acceptExit req gpa p)
  | .ok p =>
    if p.entry.state = .free then .error (acceptExit req gpa p)
    else if !p.entry.leaf then .error (gbad Status.pageSizeMismatch p.level)
    else if p.entry.state = .present then .error (gbad Status.pageAlreadyAccepted p.level)
    else if p.entry.state.isBlocked then .error (acceptExit req gpa p)
    else .ok p

/-- The number of 4KB chunks that an acceptance initialises. -/
def AcceptRun.chunks (r : AcceptRun) : Nat := pages4k r.reqLevel

/-- The chunk after which a pending interrupt stops the acceptance: the module looks before each chunk but the first
(R541 step 2.2, R745). -/
def AcceptRun.abortAt (r : AcceptRun) (intr : Option Nat) : Option Nat :=
  match intr with
  | some n => if max n (max r.done 1) < r.chunks then some (max n (max r.done 1)) else none
  | none => none

/-- The chunk after which steps of other agents come (R276); `fresh`: the walk belongs to this step. -/
def AcceptRun.pauseAt (r : AcceptRun) (fresh : Bool) (yield : Option Nat) : Option Nat :=
  match yield with
  | some k => if (r.done < k ∨ (fresh = true ∧ r.done = k)) ∧ k ≤ r.chunks then some k else none
  | none => none

/-- The chunks up to `n` zeroed with the TD's key. -/
def zeroChunks (s : State) (hkid : Nat) (r : AcceptRun) (n : Nat) : State :=
  if r.done < n then zeroDirect s hkid (r.hpa + r.done * 4096) ((n - r.done) * 4096) else s

/-- Other agents act before the acceptance goes on; the entry lock is held (R276). -/
def acceptPause (s : State) (v : Nat) (held : Locks) (r : AcceptRun) : State :=
  { s with locks := held }.modVp v fun p => { p with accept := some r }

/-- The interrupt is taken first: the lock is released, RIP and the GPRs are unchanged (R541 step 2.2). -/
def acceptAbort (s : State) (v : Nat) (base : Locks) : State :=
  { s with locks := base }.modVp v fun p => { p with accept := none }.entering

/-- Step 3: the compare-and-exchange from the entry that the walk found; another state of the entry is a TD exit (step
3.1), whose record is that of `acceptExit`. -/
def acceptFinish (s : State) (v : Nat) (base : Locks) (r : AcceptRun) : State :=
  let s1 := { s with locks := base }.modVp v fun p => { p with accept := none }
  let e := septAt s r.entry
  if e = ⟨.pending, true, r.hpa⟩ then
    guestReturn (s1.setSept r.entry { e with state := .present }) v Status.success 0 []
  else
    guestExit s1 v (flowViolation .write r.gpa) .success
      (extQualAccept r.reqLevel r.entryLevel { e with leaf := true })

/-- Steps 2 and 3, as far as this step goes: `base` are the locks without the entry lock, `held` with it (log entries
26 and 54). Step 3 reads the Secure EPT entry, which may have been poisoned while other agents acted (R271, R751). -/
def acceptRun (s : State) (v hkid : Nat) (base held : Locks) (r : AcceptRun) (fresh : Bool) : State :=
  match r.pauseAt fresh s.lp.yieldAt, r.abortAt s.lp.intrPending with
  | some k, some n =>
    if k ≤ n then acceptPause (zeroChunks s hkid r k) v held { r with done := k }
    else acceptAbort (zeroChunks s hkid r n) v base
  | some k, none => acceptPause (zeroChunks s hkid r k) v held { r with done := k }
  | none, some n => acceptAbort (zeroChunks s hkid r n) v base
  | none, none =>
    if linePoison s hkid (r.entry / 64) then unbreakableShutdown (zeroChunks s hkid r r.chunks)
    else acceptFinish (zeroChunks s hkid r r.chunks) v base r

/-- The checks, the walk and the entry lock (R541 step 1), then the chunks. -/
def acceptStart (s : State) (v : Nat) (t : Tdr) (c : Tdcs) (p : Tdvps) : GFn State := do
  let w := p.gprs.rcx
  let level := bitsOf w 2 0
  let gpa := bitsOf w 51 12 * 4096
  greq (bitsOf w 11 3 == 0 && bitsOf w 63 52 == 0 && decide (level ≤ 1)) (gbad Status.operandInvalid Operand.rcx)
  greq (c.privateGpa gpa) (gbad Status.operandInvalid Operand.rcx)
  greq (isAligned gpa (pageBytes level)) (gbad Status.operandInvalid Operand.rcx)
  let e ← acceptWalk s t c level gpa
  let held ← gOr (acquire s.locks (.septEntry e.addr) .exclusive) (gbad Status.operandBusy Operand.sept)
  pure (acceptRun s v t.hkid s.locks held ⟨level, gpa, e.addr, e.level, e.entry.hpa, 0⟩ true)

/-- R541: one step of it, from the start or from where the last one stopped. -/
def memPageAccept (s : State) (v : Nat) : GFn State := do
  let (_, t, c, p) ← openGuest s v
  match p.accept with
  | some r => pure (acceptRun s v t.hkid (release s.locks (.septEntry r.entry)) s.locks r false)
  | none => acceptStart s v t c p

/-- TDG.MEM.PAGE.ACCEPT (R541). -/
def execTdgMemPageAccept (s : State) : Outcome := guestCall memPageAccept s

/-! ## TDG.MR.REPORT (R542) -/

/-- TDINFO_STRUCT (R391): 512 bytes. -/
def tdInfo (c : Tdcs) : List Byte :=
  leBytes 8 c.attributes.toNat ++ leBytes 8 c.xfam.toNat ++ padTo 48 c.mrtd ++ padTo 48 c.mrconfigid ++
    padTo 48 c.mrowner ++ padTo 48 c.mrownerconfig ++ padTo 48 (c.rtmr.getD 0 []) ++ padTo 48 (c.rtmr.getD 1 []) ++
    padTo 48 (c.rtmr.getD 2 []) ++ padTo 48 (c.rtmr.getD 3 []) ++ List.replicate 112 0

/-- The first 224 bytes of REPORTMACSTRUCT (R389, R390), over which the MAC is computed. -/
def reportMacBody (p : Platform) (info data : List Byte) : List Byte :=
  padTo 16 [0x81] ++ padTo 16 p.cpusvn ++ sha384 (padTo 239 p.teeTcbInfo) ++ sha384 info ++ padTo 64 data ++
    List.replicate 32 0

/-- TDREPORT_STRUCT (R388): 1024 bytes. -/
def tdReport (p : Platform) (c : Tdcs) (data : List Byte) : List Byte :=
  let info := tdInfo c
  let body := reportMacBody p info data
  body ++ padTo 32 (Config.macK body) ++ padTo 239 p.teeTcbInfo ++ List.replicate 17 0 ++ info

/-- R542. -/
def mrReport (s : State) (v : Nat) : GFn State := do
  let (td, t, c, p) ← openGuest s v
  let out := p.gprs.rcx.toNat
  let inp := p.gprs.rdx.toNat
  greq (isAligned out 1024 && c.legalGpa out) (gbad Status.operandInvalid Operand.rcx)
  greq (isAligned inp 64 && c.legalGpa inp) (gbad Status.operandInvalid Operand.rdx)
  greq (p.gprs.r8 == 0) (gbad Status.operandInvalid Operand.r8)
  guestLock s (.rtmr td) .shared Operand.rtmr
  let src ← guestGpa s t c p inp .read
  let data ← guestRead s src 64
  let dst ← guestGpa s t c p out .write
  greq (guestBacked s.plat dst.hkid dst.hpa 1024) .unbreakable
  pure (guestReturn (guestWrite s dst (tdReport s.plat c data)) v Status.success 0 [])

/-- TDG.MR.REPORT (R542). -/
def execTdgMrReport (s : State) : Outcome := guestCall mrReport s

/-! ## TDG.MR.RTMR.EXTEND (R543) -/

/-- RTMR[j] replaced by SHA384(RTMR[j] || data). -/
def Tdcs.extendRtmr (c : Tdcs) (j : Nat) (data : List Byte) : Tdcs :=
  { c with rtmr := c.rtmr.set j (sha384 (padTo 48 (c.rtmr.getD j []) ++ data)) }

/-- R543. -/
def mrRtmrExtend (s : State) (v : Nat) : GFn State := do
  let (td, t, c, p) ← openGuest s v
  let gpa := p.gprs.rcx.toNat
  greq (isAligned gpa 64 && c.privateGpa gpa) (gbad Status.operandInvalid Operand.rcx)
  greq (decide (p.gprs.rdx.toNat < 4)) (gbad Status.operandInvalid Operand.rdx)
  guestLock s (.rtmr td) .exclusive Operand.rtmr
  let src ← guestGpa s t c p gpa .read
  let data ← guestRead s src 48
  pure (guestReturn (s.modTdcs td fun c => c.extendRtmr p.gprs.rdx.toNat data) v Status.success 0 [])

/-- TDG.MR.RTMR.EXTEND (R543). -/
def execTdgMrRtmrExtend (s : State) : Outcome := guestCall mrRtmrExtend s

/-! ## TDG.VM.RD and TDG.VM.WR (R544, R545) -/

/-- The lookup with its failure status (R136, D26). -/
def guestTdField (s : State) (id : Word) : GFn (TdFieldRow × Nat) :=
  gOr (tdField s.plat id) (gbad Status.operandInvalid Operand.rdx)

/-- Reading RTMR takes the RTMR lock shared (R544, D45). -/
def rtmrReadLock (s : State) (td : Nat) (f : TdField) : GFn Unit :=
  if f = .rtmr then guestLock s (.rtmr td) .shared Operand.rtmr else .ok ()

/-- R544. -/
def vmRd (s : State) (v : Nat) : GFn State := do
  let (td, t, c, p) ← openGuest s v
  greq (p.gprs.rcx == 0) (gbad Status.operandInvalid Operand.rcx)
  let (r, i) ← guestTdField s p.gprs.rdx
  greq r.guest.reads (gbad Status.fieldNotReadable 0)
  rtmrReadLock s td r.field
  pure (guestReturn s v Status.success 0 [(.r8, readTdField s t c i r.field)])

/-- TDG.VM.RD (R544). -/
def execTdgVmRd (s : State) : Outcome := guestCall (fun s v => gWithOuts [(.r8, 0)] (vmRd s v)) s

/-- R545 when no other agent writes the field in the same step: the element is read, combined with the mask and
written. -/
def vmWrAlone (s : State) (v : Nat) : GFn State := do
  let (td, t, c, p) ← openGuest s v
  greq (p.gprs.rcx == 0) (gbad Status.operandInvalid Operand.rcx)
  let (r, i) ← guestTdField s p.gprs.rdx
  let m := r.maskFor r.guest p.gprs.r9
  greq (m != 0) (gbad Status.fieldNotWritable 0)
  let old := readTdField s t c i r.field
  let s1 := s.modTdcs td fun c => writeTdField c r.field (mergeMask old p.gprs.r8 m)
  pure (guestReturn s1 v Status.success 0 [(.r8, old)])

/-- The VCPU that the current logical processor runs is about to complete TDG.VM.WR of the field of its TD. -/
def guestWrites (s : State) (w td : Nat) (id : Word) : Bool :=
  s.ownerOf w == td
    && ((tblGet s.vps w).any fun p => p.gprs.rax == w64 Instr.tdgVmWr.leaf && p.gprs.rdx == id && p.boundaryExits.isEmpty)
    && match guestCall vmWrAlone s with
       | .next t => (tblGet t.vps w).any fun p => p.gprs.rax == statusWord Status.success 0
       | _ => false

/-- The host is about to complete TDH.MNG.WR of the field of the TD on the current logical processor. -/
def hostWrites (s : State) (td : Nat) (id : Word) : Bool :=
  s.hreg .rax == w64 Instr.tdhMngWr.leaf && s.hreg .rcx == w64 td && s.hreg .rdx == id
    && match hostCall false mngWr s with
       | .next t => t.hreg .rax == statusWord Status.success 0
       | _ => false

/-- Another agent writes the field in the same step: the next label of the schedule is its call, on another logical
processor, and the call completes the write (R545; log entry 70). -/
def fieldContended (s : State) (td : Nat) (id : Word) : Bool :=
  match s.schedule with
  | .call i :: _ =>
    i != s.curLp &&
      match (s.lpAt i).curVcpu with
      | some w => guestWrites { s with curLp := i } w td id
      | none => hostWrites { s with curLp := i } td id
  | _ => false

/-- The other agent's compare-and-exchange comes first, which is the environment's choice (R248; log entry 70). -/
def vmWrLoses (s : State) (td : Nat) (id : Word) : Bool := s.raceLost && fieldContended s td id

/-- R545. A write that loses the race for the field writes nothing; the race is then over. -/
def vmWr (s : State) (v : Nat) : GFn State := do
  let r ← vmWrAlone s v
  if vmWrLoses s (s.ownerOf v) (((tblGet s.vps v).map fun p => p.gprs.rdx).getD 0) then
    pure (guestReturn { s with raceLost := false } v Status.operandBusy Operand.tdcs [(.r8, 0)])
  else pure r

/-- TDG.VM.WR (R545). -/
def execTdgVmWr (s : State) : Outcome := guestCall (fun s v => gWithOuts [(.r8, 0)] (vmWr s v)) s

/-! ## TDG.VP.CPUIDVE.SET (R546) -/

/-- R546. -/
def vpCpuidveSet (s : State) (v : Nat) : GFn State := do
  let (_, _, _, p) ← openGuest s v
  let m := p.gprs.rcx
  greq (bitsOf m 63 2 == 0) (gbad Status.operandInvalid Operand.rcx)
  let s1 := s.modVp v fun p => { p with cpuidSupervisorVe := bit m 0, cpuidUserVe := bit m 1 }
  pure (guestReturn s1 v Status.success 0 [])

/-- TDG.VP.CPUIDVE.SET (R546). -/
def execTdgVpCpuidveSet (s : State) : Outcome := guestCall vpCpuidveSet s

/-! ## TDG.VP.INFO (R547) -/

/-- The outputs of TDG.VP.INFO (R547). -/
def vpInfoOuts (c : Tdcs) (p : Tdvps) : List (Reg × Word) :=
  [(.rcx, w64 c.gpaWidth), (.rdx, c.attributes), (.r8, w64 (c.maxVcpus * 2 ^ 32 + c.numVcpus)),
   (.r9, w64 p.vcpuIndex), (.r10, 0), (.r11, 0)]

/-- R547. -/
def vpInfo (s : State) (v : Nat) : GFn State := do
  let (_, _, c, p) ← openGuest s v
  pure (guestReturn s v Status.success 0 (vpInfoOuts c p))

/-- TDG.VP.INFO (R547). -/
def execTdgVpInfo (s : State) : Outcome := guestCall vpInfo s

/-! ## TDG.VP.VEINFO.GET (R548) -/

/-- The outputs of TDG.VP.VEINFO.GET (R548). -/
def veInfoOuts (i : VeInfo) : List (Reg × Word) :=
  [(.rcx, i.exitReason), (.rdx, i.exitQualification), (.r8, i.gla), (.r9, i.gpa),
   (.r10, (i.instructionInformation <<< 32) ||| (i.instructionLength &&& 0xFFFFFFFF))]

/-- The outputs of a failing TDG.VP.VEINFO.GET. -/
def veInfoZero : List (Reg × Word) := [(.rcx, 0), (.rdx, 0), (.r8, 0), (.r9, 0), (.r10, 0)]

/-- R548. -/
def vpVeinfoGet (s : State) (v : Nat) : GFn State := do
  let (_, _, _, p) ← openGuest s v
  greq (p.veInfo.valid != 0) (.status Status.noValidVeInfo 0 veInfoZero)
  let s1 := s.modVp v fun p => { p with veInfo := { p.veInfo with valid := 0 } }
  pure (guestReturn s1 v Status.success 0 (veInfoOuts p.veInfo))

/-- TDG.VP.VEINFO.GET (R548). -/
def execTdgVpVeinfoGet (s : State) : Outcome := guestCall vpVeinfoGet s

/-! ## TDG.VP.VMCALL (R549) -/

/-- The bits of the RCX mask that must be 0: RAX, RCX, RSP and bits 63:32 (R549). -/
def vmcallReserved : Word := 0xFFFFFFFF00000013

/-- The XMM registers of the host after TDG.VP.VMCALL: the guest's where the mask selects them, else 0 (R549
step 4.2). -/
def passXmmOut (mask : Word) (guest host : RegFile) : List Nat → RegFile
  | [] => host
  | i :: is =>
    let x (h : Nat) : Word := if bit mask (16 + i) then regGet guest (xmmUnit i h) else 0
    passXmmOut mask guest (regSet (regSet host (xmmKey i 0) (x 0)) (xmmKey i 1) (x 1)) is

/-- The GPRs the host sees after TDG.VP.VMCALL (R549 steps 4.3 to 4.5). -/
def vmcallGprs (g : Gprs) : Gprs :=
  { passGprs g.rcx g Gprs.zero passedRegs with rax := statusWord Status.success 77, rcx := g.rcx }

/-- The VCPU after TDG.VP.VMCALL (R549 steps 1 and 2): its extended state is saved (R205). -/
def Tdvps.afterVmcall (p : Tdvps) (tsc : Word) (tick : Nat) : Tdvps :=
  { ((p.setVm Vmcs.rip (p.vm Vmcs.rip + w64 tdcallLength)).progress).saveExt tick with
    vcpuState := .readyTdvmcall, lastExitTsc := tsc }

/-- R549. -/
def vpVmcall (s : State) (v : Nat) : GFn State := do
  let (td, _, c, p) ← openGuest s v
  greq ((p.gprs.rcx &&& vmcallReserved) == 0) (gbad Status.operandInvalid Operand.rcx)
  greq (entryLocksHeld s.locks v td) .fatal
  let s1 := s.modVp v fun p => p.afterVmcall s.tsc s.tick
  let s2 := s1.modTdcs td fun c => c.unref p.vcpuEpoch
  let s3 := { s2 with locks := releaseEntryLocks s2.locks v td }
  pure (s3.modLp fun l =>
    { l.afterExit c p.xfam with
      gprs := vmcallGprs p.gprs, rip := l.rip + w64 s.plat.seamcallLength
      ext := passXmmOut p.gprs.rcx p.xbuff (extInit (p.xfam ||| c.xfam) l.ext) (List.range 16) })

/-- TDG.VP.VMCALL (R549): a TD exit; it completes for the guest at the next TDH.VP.ENTER (R512). -/
def execTdgVpVmcall (s : State) : Outcome := guestCall vpVmcall s

end Sys2Proof.Machine
end

