-- ==== Sys2Proof/Machine/Dispatch.lean ====
section
/-! DEFINITION. One arm per constructor of `Instr`: the meaning of each of the 43 SEAMCALL and the 9 TDCALL leaf
functions. -/

namespace Sys2Proof.Machine

/-- The meaning of an instruction, executed by the current logical processor. -/
def exec (i : Instr) (s : State) : Host.Outcome State Fault Refusal :=
  match i with
  | .tdhVpEnter => Sys2Proof.Machine.execTdhVpEnter s
  | .tdhMngAddcx => Sys2Proof.Machine.execTdhMngAddcx s
  | .tdhMemPageAdd => Sys2Proof.Machine.execTdhMemPageAdd s
  | .tdhMemSeptAdd => Sys2Proof.Machine.execTdhMemSeptAdd s
  | .tdhVpAddcx => Sys2Proof.Machine.execTdhVpAddcx s
  | .tdhMemPageRelocate => Sys2Proof.Machine.execTdhMemPageRelocate s
  | .tdhMemPageAug => Sys2Proof.Machine.execTdhMemPageAug s
  | .tdhMemRangeBlock => Sys2Proof.Machine.execTdhMemRangeBlock s
  | .tdhMngKeyConfig => Sys2Proof.Machine.execTdhMngKeyConfig s
  | .tdhMngCreate => Sys2Proof.Machine.execTdhMngCreate s
  | .tdhVpCreate => Sys2Proof.Machine.execTdhVpCreate s
  | .tdhMngRd => Sys2Proof.Machine.execTdhMngRd s
  | .tdhMemRd => Sys2Proof.Machine.execTdhMemRd s
  | .tdhMngWr => Sys2Proof.Machine.execTdhMngWr s
  | .tdhMemWr => Sys2Proof.Machine.execTdhMemWr s
  | .tdhMemPageDemote => Sys2Proof.Machine.execTdhMemPageDemote s
  | .tdhMrExtend => Sys2Proof.Machine.execTdhMrExtend s
  | .tdhMrFinalize => Sys2Proof.Machine.execTdhMrFinalize s
  | .tdhVpFlush => Sys2Proof.Machine.execTdhVpFlush s
  | .tdhMngVpflushdone => Sys2Proof.Machine.execTdhMngVpflushdone s
  | .tdhMngKeyFreeid => Sys2Proof.Machine.execTdhMngKeyFreeid s
  | .tdhMngInit => Sys2Proof.Machine.execTdhMngInit s
  | .tdhVpInit => Sys2Proof.Machine.execTdhVpInit s
  | .tdhMemPagePromote => Sys2Proof.Machine.execTdhMemPagePromote s
  | .tdhPhymemPageRdmd => Sys2Proof.Machine.execTdhPhymemPageRdmd s
  | .tdhMemSeptRd => Sys2Proof.Machine.execTdhMemSeptRd s
  | .tdhVpRd => Sys2Proof.Machine.execTdhVpRd s
  | .tdhMngKeyReclaimid => Sys2Proof.Machine.execTdhMngKeyReclaimid s
  | .tdhPhymemPageReclaim => Sys2Proof.Machine.execTdhPhymemPageReclaim s
  | .tdhMemPageRemove => Sys2Proof.Machine.execTdhMemPageRemove s
  | .tdhMemSeptRemove => Sys2Proof.Machine.execTdhMemSeptRemove s
  | .tdhSysKeyConfig => Sys2Proof.Machine.execTdhSysKeyConfig s
  | .tdhSysInfo => Sys2Proof.Machine.execTdhSysInfo s
  | .tdhSysInit => Sys2Proof.Machine.execTdhSysInit s
  | .tdhSysLpInit => Sys2Proof.Machine.execTdhSysLpInit s
  | .tdhSysTdmrInit => Sys2Proof.Machine.execTdhSysTdmrInit s
  | .tdhMemTrack => Sys2Proof.Machine.execTdhMemTrack s
  | .tdhMemRangeUnblock => Sys2Proof.Machine.execTdhMemRangeUnblock s
  | .tdhPhymemCacheWb => Sys2Proof.Machine.execTdhPhymemCacheWb s
  | .tdhPhymemPageWbinvd => Sys2Proof.Machine.execTdhPhymemPageWbinvd s
  | .tdhVpWr => Sys2Proof.Machine.execTdhVpWr s
  | .tdhSysLpShutdown => Sys2Proof.Machine.execTdhSysLpShutdown s
  | .tdhSysConfig => Sys2Proof.Machine.execTdhSysConfig s
  | .tdgVpVmcall => Sys2Proof.Machine.execTdgVpVmcall s
  | .tdgVpInfo => Sys2Proof.Machine.execTdgVpInfo s
  | .tdgMrRtmrExtend => Sys2Proof.Machine.execTdgMrRtmrExtend s
  | .tdgVpVeinfoGet => Sys2Proof.Machine.execTdgVpVeinfoGet s
  | .tdgMrReport => Sys2Proof.Machine.execTdgMrReport s
  | .tdgVpCpuidveSet => Sys2Proof.Machine.execTdgVpCpuidveSet s
  | .tdgMemPageAccept => Sys2Proof.Machine.execTdgMemPageAccept s
  | .tdgVmRd => Sys2Proof.Machine.execTdgVmRd s
  | .tdgVmWr => Sys2Proof.Machine.execTdgVmWr s

end Sys2Proof.Machine
end

