-- ==== Sys2Proof/WellFormed.lean ====
section
/-! DEFINITION. Well-formedness: of an instruction for the side that executes it, of a label, of a platform. -/

namespace Sys2Proof

/-- An instruction belongs to the side that executes it, and its leaf number is one of that side's table (R320,
R328). -/
def Instr.wellFormed (side : Side) (i : Instr) : Bool :=
  decide (i.side = side) && (leafRows side).any fun r => decide (r.leaf = i.leaf)

namespace Machine

/-- An instruction's length is 1 to 15 bytes. -/
def lengthOk (n : Nat) : Bool := decide (1 ≤ n) && decide (n ≤ 15)

/-- The bytes of a part are inside one page and the address widths. -/
def MemPart.wellFormed (m : MemPart) : Bool :=
  decide (1 ≤ m.size) && decide (m.gpa % 4096 + m.size ≤ 4096) && decide (m.gla < 2 ^ 64) && decide (m.gpa < 2 ^ 64)

/-- An access has one part, or two when it spans two pages, and a size of its operation's. -/
def MemAccess.wellFormed (a : MemAccess) : Bool :=
  a.parts.all MemPart.wellFormed && (a.parts.length == 1 || a.parts.length == 2)
    && a.op.sizeOk (a.parts.map (·.size)).sum

/-- The operands of a guest operation are inside their fields. -/
def GuestOp.wellFormed : GuestOp → Bool
  | .ud _ x | .ve _ x | .wbnoinvd x | .pconfig x | .rdpmc x | .movToCr0 _ x | .movToCr4 _ x => lengthOk x.length
  | .senduipi n off _ => lengthOk n && decide (off < 4096)
  | .movFromCr0 _ n | .movFromCr4 _ n | .movToCr3 _ n | .movFromCr3 _ n | .movToCr8 _ n | .movFromCr8 _ n => lengthOk n
  | .movToDr d _ n | .movFromDr d _ n => decide (d < 8) && lengthOk n
  | .mem as _ n _ _ _ => lengthOk n && as.all MemAccess.wellFormed
  | .controlled _ x as _ _ _ => lengthOk x.length && as.all MemAccess.wellFormed
  | .exception n _ _ => decide (n < 32)
  | .softInt (.int n) length => decide (n < 256) && lengthOk length
  | .softInt _ length => lengthOk length
  | .enqcmd | .enqcmds | .rdmsr | .wrmsr | .umonitor _ | .enclu | .keyLocker _ | .cpuid | .xsetbv | .xgetbv | .rdtsc | .rdtscp | .iret _ | .other _ =>
    true

/-- A vector is 8 bits, a basic exit reason 16. -/
def Event.wellFormed : Event → Bool
  | .externalInterrupt n => decide (n < 256)
  | .entryFailure n _ => decide (n < 65536)
  | .busLocked e => e.wellFormed
  | .nmi | .smi _ | .ioSmi _ _ _ _ _ | .initSignal | .tripleFault | .taskSwitch _ _ _ | .machineCheck | .busLock | .notification _
  | .nmiWindow | .virtualInterrupt | .pasidFailure _ | .debugExit _ | .unbreakable => true

/-- The operands of a host operation are inside their fields. -/
def HostOp.wellFormed (p : Platform) : HostOp → Bool
  | .setDr n _ => decide (n ≤ 3) || n == 6 || n == 7
  | .setCr n _ => n == 0 || n == 3 || n == 4 || n == 8
  | .setSeg i _ => decide (i < 8)
  | .memRead _ pa => decide (pa + 8 ≤ 2 ^ p.maxPa)
  | .memWrite pa bs => decide (pa + bs.length ≤ 2 ^ p.maxPa)
  | .clflush pa => decide (pa < 2 ^ p.maxPa)
  | .pconfig h _ => decide (h ≤ p.maxHkid)
  | .setGpr _ _ | .setRsp _ | .setRip _ | .setRflags _ | .setExt _ _ | .setCr2 _ | .setXcr0 _ | .setMsr _ _
  | .setMiscEnable _ | .setTscAdjust _ | .setGdtr _ | .setIdtr _ | .wbinvd | .wbnoinvd | .invept _ => true

/-- The operands of a choice of the environment are inside their fields. -/
def EnvOp.wellFormed (s : State) : EnvOp → Bool
  | .advanceTsc n => decide (0 < n) && decide (n < 2 ^ 64)
  | .setIntrPending i _ | .setYield i _ | .setApicMode i _ | .dropTlb i _ | .moduleMachineCheck i =>
    decide (i < s.lps.length)
  | .evict _ h | .evictStale _ h | .moduleStore _ h _ | .fill _ h => decide (h < 65536)
  | .dmaWrite pa bs => decide (pa + bs.length ≤ 2 ^ s.plat.maxPa)
  | .dmaRead pa n => decide (pa + n ≤ 2 ^ s.plat.maxPa)
  | .setEntropy _ | .setRaceLost _ | .corrupt _ | .holdLock _ _ | .dropLock _ | .platformReset | .moduleReload => true

/-- A label names a logical processor of the platform, and its operands are inside their fields. -/
def Label.wellFormed (s : State) : Label → Bool
  | .call i => decide (i < s.lps.length)
  | .guest i op => decide (i < s.lps.length) && op.wellFormed
  | .event i e => decide (i < s.lps.length) && e.wellFormed
  | .host i op => decide (i < s.lps.length) && op.wellFormed s.plat
  | .env op => op.wellFormed s

/-- The used CMRs: 4KB multiples, not empty, ascending and disjoint, inside the addresses that the HKID bits leave
(R45, R779). -/
def cmrsOk (p : Platform) : Nat → List (Nat × Nat) → Bool
  | from_, [] => decide (from_ ≤ 2 ^ p.addrBits)
  | from_, (base, size) :: rest =>
    isAligned base 4096 && isAligned size 4096 && decide (0 < size) && decide (from_ ≤ base) &&
      cmrsOk p (base + size) rest

/-- The bounds on what TDSYSINFO_STRUCT reports (R392, R590; 93_implementation_defined.md section 1.2): module attributes
30:0 are 0, the vendor is Intel, every value fits its field, structure sizes are whole pages, the FIXED masks are
consistent with one another, with R384 and with Table 10.4, at most 37 CPUID_CONFIG entries, and at most 28 reserved areas,
the number that a TDMR_INFO of 512 bytes holds (R394). -/
def Platform.sysInfoOk (p : Platform) : Bool :=
  (p.moduleAttributes == 0 || p.moduleAttributes == 2 ^ 31) && p.vendorId == 0x8086 && decide (p.buildDate < 2 ^ 32)
    && [p.buildNum, p.minorVersion, p.majorVersion, p.maxTdmrs, p.maxReservedPerTdmr, p.pamtEntrySize, p.tdcsBaseSize,
        p.tdvpsBaseSize].all (fun n => decide (n < 2 ^ 16))
    && isAligned p.tdcsBaseSize 4096 && isAligned p.tdvpsBaseSize 4096
    && (p.attributesFixed0 &&& ~~~0x8000000050000001) == 0 && (p.attributesFixed1 &&& ~~~p.attributesFixed0) == 0
    && (p.xfamFixed0 &&& ~~~0x6DBE7) == 0 && (p.xfamFixed1 &&& ~~~p.xfamFixed0) == 0 && (p.xfamFixed1 &&& 3) == 3
    && decide (p.cpuidConfig.length ≤ 37) && decide (p.maxReservedPerTdmr ≤ 28)

/-- The MSR bitmaps are a TDCX page of their own, not the Secure EPT root (R133, R134), and the virtual APIC page and VE_INFO
lie in different pages of the TDVPS (R160, R166, R184). -/
def Platform.structurePagesOk (p : Platform) : Bool :=
  decide (p.msrBitmapTdcx < p.tdcxRequired) && p.msrBitmapTdcx != p.septRootTdcx && decide (p.vapicPage ≤ p.tdvpxRequired)
    && decide (p.veInfoPage ≤ p.tdvpxRequired) && p.vapicPage != p.veInfoPage

/-- The failure statuses of the platform checks of TDH.SYS.INIT (R486, Table 22.132). -/
def sysInitFailures : List Nat :=
  [Status.bootNt4Set, Status.cmrListInvalid, Status.cpuidLeafNotSupported, Status.cpuidLeaf1fFormatUnrecognized,
   Status.incorrectCpuidValue, Status.incorrectMsrValue, Status.invalidSmrrConfiguration, Status.invalidWbinvdScope,
   Status.numActivatedHkidsNotSupported, Status.smrrLockNotSupported, Status.smrrNotLocked, Status.smrrNotSupported,
   Status.smrrOverlapsCmr]

/-- The failure statuses of the platform checks of TDH.SYS.LP.INIT (R488, Table 22.140). -/
def lpInitFailures : List Nat :=
  [Status.bootNt4Set, Status.inconsistentCpuidField, Status.inconsistentMsr, Status.incorrectMsrValue,
   Status.invalidPkgId, Status.seamreportNotAvailable]

/-- A failing check has one of the given statuses, and details of 32 bits. -/
def CheckFailure.among (statuses : List Nat) (f : CheckFailure) : Bool :=
  statuses.contains f.status && decide (f.details < 2 ^ 32)

/-- PLATFORM_OK and PLATFORM_LP_OK fail with the statuses of their functions only (R778; 93_implementation_defined.md section
1.1). -/
def Platform.checksOk (p : Platform) : Bool :=
  p.platformOk.all (CheckFailure.among sysInitFailures) &&
    p.platformLpOk.all fun e => CheckFailure.among lpInitFailures e.2

/-- A completion status of 32 bits that is an error: bit 63 of RAX is 1 (R322). -/
def errorStatus (n : Nat) : Bool := decide (2 ^ 31 ≤ n) && decide (n < 2 ^ 32)

/-- The statuses that the source does not print are errors, TDX_KEY_GENERATION_FAILED a recoverable one of class 8 (R323, R746,
92_eei_decisions.md D28 and D74). CPUID_VALUES has an entry for every row of R690; its identifiers, and those of MRTD_CONTEXT,
stay inside the 32-bit field code (R130, R132, R395). -/
def Platform.codesOk (p : Platform) : Bool :=
  errorStatus p.statusEpfEntryRefused && errorStatus p.statusSysConfigNotPending && errorStatus p.statusKeyGenerationFailed
    && decide (p.statusKeyGenerationFailed < 0xC0000000) && p.statusKeyGenerationFailed / 256 % 256 == 8
    && decide (cpuidTable.length ≤ p.numCpuidValues) && decide (0x400 + 2 * p.numCpuidValues ≤ 2 ^ 32)
    && p.mrtdContextCode.all fun code => decide (code + 8 ≤ 2 ^ 32)

/-- The constraints of R12, R45, R130, R132, R173, R392, R490, R672, R746 and R778 on the platform's parameters: at most 32 CMRs, TDCX pages for the
Secure EPT root and the MSR bitmaps, initial control registers that the platform allows, a stepping of every package; and
the length of SEAMCALL is an instruction's (log entry 10). -/
def Platform.wellFormed (p : Platform) : Bool :=
  decide (p.maxPa ≤ 52) && decide (p.hkidBits < p.maxPa) && decide (p.maxHkid < 2 ^ p.hkidBits)
    && decide (2 ^ p.hkidBits ≤ 65536) && decide (1 ≤ p.numTdxPrivKids) && !p.lps.isEmpty
    && p.lps.all (fun l => decide (l.pkg < p.maxPkgs)) && decide (1 ≤ p.epfThreshold)
    && decide (p.cmrs.length ≤ 32) && cmrsOk p 0 p.cmrs && decide (p.septRootTdcx < p.tdcxRequired) && p.structurePagesOk && p.crInitOk
    && p.packages.all (fun k => p.steppings.any fun c => c.pkg == k) && p.sysInfoOk && p.checksOk
    && decide (1 ≤ p.tdmrInitChunk) && p.codesOk && lengthOk p.seamcallLength

end Machine

end Sys2Proof
end

