-- ==== Sys2Proof/Machine/Calls.lean ====
section
/-! DEFINITION. How a logical processor calls, and what each label of the schedule does (00_scope.md rule R11). A call is
SEAMCALL in root mode and TDCALL in TDX non-root mode; RAX selects the function (30_encoding.md rules R320, R328). -/

namespace Sys2Proof.Machine

/-- Which call the current logical processor executes. -/
def State.side (s : State) : Side := if s.lp.curVcpu.isSome then .tdcall else .seamcall

/-- RAX of the current logical processor: the guest's while a guest runs. -/
def State.callRax (s : State) : Word :=
  match s.lp.curVcpu with
  | none => s.lp.gprs.rax
  | some v => match tblGet s.vps v with | some p => p.gprs.rax | none => 0

/-- The VM exit that is due before the running guest's next instruction, where the guest is not in the middle of a TDCALL. -/
def State.boundaryFirst (s : State) : Option BoundaryExit :=
  match runningGuest s with
  | some (_, _, _, p) => if p.accept.isSome then none else p.boundaryExits.head?
  | none => none

/-- A call with an unsupported leaf number (R321 step 1, R328). -/
def unsupportedCall (s : State) : Outcome :=
  match s.side with
  | .seamcall => unsupportedSeamcall s
  | .tdcall => unsupportedTdcall s

/-- The current logical processor executes SEAMCALL or TDCALL; a VM exit that is due before it comes first (R642, R725). -/
def callStep (s : State) : Outcome :=
  match s.boundaryFirst with
  | some b =>
    match lpStop s, s.lp.curVcpu with
    | some o, _ => o
    | none, some v => .next (takeBoundaryExit s v b)
    | none, none => .refused .notInGuest
  | none =>
    match decode s.side s.callRax with
    | .ok i => exec i s
    | .error _ => unsupportedCall s

/-- The step a label names. -/
def runLabel (s : State) (l : Label) : Outcome :=
  match l with
  | .call lp => callStep { s with curLp := lp }
  | .guest lp op => guestStep { s with curLp := lp } op
  | .event lp e => eventStep { s with curLp := lp } e
  | .host lp op => hostStep { s with curLp := lp } op
  | .env op => envStep s op

/-- One step more has begun: the free values of this step are its own. -/
def State.ticked (s : State) : State := { s with tick := s.tick + 1 }

/-- RAX of the current logical processor, or of the guest it runs, set. -/
def State.setCallRax (s : State) (x : Word) : State :=
  match s.lp.curVcpu with
  | none => s.modLp fun l => { l with gprs := { l.gprs with rax := x } }
  | some v => s.modVp v fun p => { p with gprs := { p.gprs with rax := x } }

end Sys2Proof.Machine
end

