-- ==== Sys2Proof/Machine/Step.lean ====
section
/-! DEFINITION. The step of the machine (00_scope.md rule R11): the next label of the schedule, or, when none is
scheduled, a call by the current logical processor. -/

namespace Sys2Proof.Machine

/-- One step of the machine. -/
def step (s : State) : Host.Outcome State Fault Refusal :=
  match s.schedule with
  | [] => callStep s.ticked
  | l :: rest =>
    if l.wellFormed s then runLabel { s.ticked with schedule := rest } l else .refused .illFormedLabel

/-- The state whose next step is a call by the current logical processor with the low `nbits` bits of `w` in RAX. -/
def State.withFetchWord (s : State) (nbits w : Nat) : State :=
  let s1 := s.setCallRax (w64 (w % 2 ^ nbits))
  match s1.schedule with
  | [] => s1
  | ls => { s1 with schedule := .call s1.curLp :: ls }

end Sys2Proof.Machine
end

