-- ==== Sys2Proof/Safety.lean ====
section
/-! DEFINITION. The terms of the claims: what a safe run is, when a call reaches its function, when an operand is legal,
what every step keeps (60_exceptions.md rules R750 and R751; 30_encoding.md rules R321, R322, R327, R328; 20_memory.md
rules R245 and R246; 31_data_types.md rule R380). -/

namespace Sys2Proof.Safety

open Sys2Proof.Machine

/-! ## Runs -/

/-- TDX is enabled on the platform and every logical processor executes. -/
def Operational (s : State) : Prop := s.seamDisabled = false ∧ ∀ l ∈ s.lps, l.shutdown = false

/-- A step that neither stops nor disables TDX. -/
def SafeStep (s : State) : Prop := ∃ t, step s = .next t ∧ Operational t

/-- A TD that has not given its HKID back: not in TD_TEARDOWN (R53, R60). -/
abbrev HoldsHkid (t : Tdr) : Prop := t.lifecycle ≠ .teardown

/-- An HKID is assigned to at most one TD (R53 (2)), with what keeps it so: there is no TD before the module is ready,
and the key ownership table never says HKID_FREE or HKID_RESERVED of an HKID that a TD holds (R52). -/
structure HkidsDistinct (s : State) : Prop where
  noTdBeforeReady : s.sysState ≠ .sysReady → s.sysState ≠ .sysShutdown → s.tdrs = []
  held : ∀ a t, tblGet s.tdrs a = some t → HoldsHkid t →
    (kotAt s t.hkid).state = .assigned ∨ (kotAt s t.hkid).state = .flushed
  distinct : ∀ a b t u, tblGet s.tdrs a = some t → tblGet s.tdrs b = some u → HoldsHkid t → HoldsHkid u →
    t.hkid = u.hkid → a = b

/-- What every step keeps: memory is in its canonical form (equal memories are equal data), the platform's logical
processors are all there, and no two TDs hold one HKID. -/
def Inv (s : State) : Prop := s.mem.wf = true ∧ s.lps.length = s.plat.lps.length ∧ HkidsDistinct s

/-! ## Host-side calls -/

/-- SEAMCALL of the current logical processor reaches the module: it executes, runs no guest, TDX is enabled and the
logical processor has not been through TDH.SYS.LP.SHUTDOWN (R752). -/
abbrev HostCalls (s : State) : Prop :=
  s.curLp < s.lps.length ∧ s.lp.shutdown = false ∧ s.lp.curVcpu = none ∧ s.seamDisabled = false ∧
    s.lp.seamcallBlocked = false

/-- The registers other than RAX under "Operands out" of a host-side function: what it may write when it completes or fails
without entering a guest (R326, R420 to R433, R450 to R461, R480 to R490, R510 to R516). -/
def hostOutputs : Instr → List Reg
  | .tdhMemPageAdd | .tdhMemPageAug | .tdhMemPageDemote | .tdhMemPagePromote | .tdhMemPageRelocate | .tdhMemPageRemove
  | .tdhMemRangeBlock | .tdhMemRangeUnblock | .tdhMemSeptAdd | .tdhMemSeptRd | .tdhMemSeptRemove | .tdhMrExtend =>
    [.rcx, .rdx]
  | .tdhMemRd | .tdhMemWr | .tdhSysLpInit => [.rcx, .rdx, .r8]
  | .tdhMngRd | .tdhMngWr | .tdhVpRd | .tdhVpWr => [.r8]
  | .tdhMngInit => [.rcx]
  | .tdhPhymemPageRdmd | .tdhPhymemPageReclaim => [.rcx, .rdx, .r8, .r9, .r10, .r11]
  | .tdhSysInfo => [.rdx, .r9]
  | .tdhSysInit => [.rcx, .rdx, .r8, .r9, .r10]
  | .tdhSysTdmrInit => [.rdx]
  | .tdhVpEnter | .tdhMngAddcx | .tdhVpAddcx | .tdhMngKeyConfig | .tdhMngCreate | .tdhVpCreate | .tdhMrFinalize
  | .tdhVpFlush | .tdhMngVpflushdone | .tdhMngKeyFreeid | .tdhVpInit | .tdhMngKeyReclaimid | .tdhSysKeyConfig
  | .tdhMemTrack | .tdhPhymemCacheWb | .tdhPhymemPageWbinvd | .tdhSysLpShutdown | .tdhSysConfig
  | .tdgVpVmcall | .tdgVpInfo | .tdgMrRtmrExtend | .tdgVpVeinfoGet | .tdgMrReport | .tdgVpCpuidveSet
  | .tdgMemPageAccept | .tdgVmRd | .tdgVmWr => []

/-- The same with the module in SYS_READY (R321). -/
abbrev HostReady (s : State) : Prop := HostCalls s ∧ s.sysState = .sysReady

/-- A TDH.MEM.WR that does all of its work in this step: other agents act neither before nor after it between the function's
steps 8 and 9 (R433 (b), log entry 91). -/
abbrev WritesAtOnce (i : Instr) (s t : State) : Prop := i = .tdhMemWr → s.lp.memWr = none ∧ t.lp.memWr = none

/-! ## Locks: a function that finds one of its own busy returns a busy status (R246) -/

/-- The lock can be taken in shared mode. -/
abbrev Sharable (s : State) (id : LockId) : Prop := lockState s.locks id ≠ some .exclusive

/-- The lock can be taken in exclusive mode. -/
abbrev Takable (s : State) (id : LockId) : Prop := lockState s.locks id = none

/-- A 4KB page operand can be locked in shared mode: the page and the blocks that contain it. -/
abbrev PageSharable (s : State) (a : Nat) : Prop :=
  Sharable s (.pamt1g (pageBase a 2)) ∧ Sharable s (.pamt2m (pageBase a 1)) ∧ Sharable s (.pamt4k a)

/-- A 4KB page operand can be locked exclusively, the blocks that contain it in shared mode. -/
abbrev PageTakable (s : State) (a : Nat) : Prop :=
  Sharable s (.pamt1g (pageBase a 2)) ∧ Sharable s (.pamt2m (pageBase a 1)) ∧ Takable s (.pamt4k a)

/-- The locks of a function on a TD's memory: the TDR page shared, the Secure EPT tree exclusive (40_seamcall_mem.md,
template). -/
abbrev TreeTakable (s : State) (td : Nat) : Prop := PageSharable s td ∧ Takable s (.sept td)

/-! ## Operands -/

/-- A legal operand with private or opaque semantics (CheckHpa, R245). -/
abbrev OpaqueOperand (s : State) (pa : Word) (align : Nat) : Prop :=
  pa.toNat < 2 ^ s.plat.maxPa ∧ isAligned pa.toNat align = true ∧ hkidOf s.plat pa.toNat = 0 ∧
    blockReady s pa.toNat = true ∧ pamtReadable s pa.toNat = true

/-- A legal operand with shared semantics (CheckHpa, R245). -/
abbrev SharedOperand (s : State) (pa : Word) (align : Nat) : Prop :=
  pa.toNat < 2 ^ s.plat.maxPa ∧ isAligned pa.toNat align = true ∧
    isPrivateHkid s.plat (hkidOf s.plat pa.toNat) = false

/-- There is memory behind the `n` bytes of a shared operand, and no poison in it (R271). -/
abbrev SharedReadable (s : State) (pa : Word) (n : Nat) : Prop := sharedReadable s pa.toNat n = true

/-- There is memory behind the `n` bytes of a shared operand (R271). -/
abbrev SharedBacked (s : State) (pa : Word) (n : Nat) : Prop :=
  s.plat.backed (addrOf s.plat pa.toNat) n = true

/-- The page is a TDR and holds `t`. -/
abbrev TdrPage (s : State) (a : Nat) (t : Tdr) : Prop :=
  pageIs s a 0 .tdr = true ∧ pageReadable s s.globalHkid a = true ∧ tblGet s.tdrs a = some t

/-- The TD's TDCS is `c`, readable with the TD's key. -/
abbrev TdcsOf (s : State) (a : Nat) (t : Tdr) (c : Tdcs) : Prop :=
  (t.tdcxPa.all fun p => pageReadable s t.hkid p) = true ∧ tblGet s.tdcss a = some c

/-- The state tests of CheckTD (R327). -/
abbrev TdUsable (t : Tdr) : Prop := t.fatal = false ∧ t.lifecycle = .keysConfigured ∧ t.init = true

/-- A TDR operand that passes CheckHpa and CheckTD (R245, R327). -/
abbrev TdOperand (s : State) (pa : Word) (t : Tdr) (c : Tdcs) : Prop :=
  OpaqueOperand s pa 4096 ∧ TdrPage s pa.toNat t ∧ TdUsable t ∧ TdcsOf s pa.toNat t c

/-- A page operand of a size that is free (R251), whose PAMT entries hold no poison (R785) and whose locks can be taken, not
the TDR page `td` and not a larger page around it. In a state where the page free at every level contained the TDR page, the function's own lock would
make it busy. -/
abbrev FreePage (s : State) (pa : Word) (level td : Nat) : Prop :=
  OpaqueOperand s pa (pageBytes level) ∧ pageFree s pa.toNat level = true ∧ Sharable s (.pamt1g (pageBase pa.toNat 2)) ∧
    (level = 0 → pa.toNat ≠ td ∧ Sharable s (.pamt2m (pageBase pa.toNat 1)) ∧ Takable s (.pamt4k pa.toNat)) ∧
    (level = 1 → pa.toNat ≠ pageBase td 1 ∧ Takable s (.pamt2m pa.toNat) ∧ pamtRangeReadable s pa.toNat = true)

/-- A legal mapping word: level and GPA (R380, D76). -/
abbrev MapOperand (w : Word) (c : Tdcs) (lmin lmax level gpa : Nat) : Prop :=
  bitsOf w 11 3 = 0 ∧ bitsOf w 63 52 = 0 ∧ bitsOf w 2 0 = level ∧ bitsOf w 51 12 * 4096 = gpa ∧ lmin ≤ level ∧
    level ≤ lmax ∧ isAligned gpa (pageBytes level) = true ∧ level ≤ c.rootLevel ∧ c.privateGpa gpa = true

/-- A TDVPR operand with its TD, readable with the TD's key, the TD's own page lockable in shared mode (R124, R271). -/
abbrev VcpuOperand (s : State) (pa : Word) (td : Nat) (t : Tdr) (c : Tdcs) (p : Tdvps) : Prop :=
  OpaqueOperand s pa 4096 ∧ pageIs s pa.toNat 0 .tdvpr = true ∧ s.ownerOf pa.toNat = td ∧
    pamtReadable s td = true ∧ Sharable s (.pamt4k td) ∧ TdrPage s td t ∧ TdcsOf s td t c ∧
    tblGet s.vps pa.toNat = some p ∧ (p.pagePa.all fun a => pageReadable s t.hkid a) = true

/-- The VCPU may be associated with the current logical processor (R517). -/
abbrev Associable (s : State) (p : Tdvps) : Prop :=
  p.vcpuState ≠ .uninitialized ∧ p.vcpuState ≠ .disabled ∧ (p.assocLpid = none ∨ p.assocLpid = some s.curLp)

/-- The TD VMCS field that holds the TD's HKID, where the platform has one, is none of the fields that the statement
names (R184; the encoding is a parameter). -/
abbrev HkidFieldApart (p : Platform) (field : Nat) : Prop := p.tdHkidEnc ≠ some field

/-- The VCPU enters with no debug exception pending and no task switch to attempt again: the VM entry delivers nothing
(R621, R636, log entry 73). -/
abbrev NothingToDeliver (s : State) (p : Tdvps) : Prop :=
  p.hasPendingDebug = false ∧ p.reattempts = false ∧ HkidFieldApart s.plat Vmcs.pendingDebug ∧
    HkidFieldApart s.plat Vmcs.exitReason ∧ HkidFieldApart s.plat Vmcs.idtVectoring

/-- The CPU accepts the VM entry of the VCPU: only a debugger can make its guest state bad (R642, log entry 40). -/
abbrev EntryAccepted (s : State) (v : Nat) (p : Tdvps) : Prop :=
  ((tblGet s.tdcss (s.ownerOf v)).all fun c => (entryRefusal c p).isNone) = true

/-- The VM entry of the VCPU succeeds and delivers nothing. -/
abbrev EntersPlainly (s : State) (v : Nat) (p : Tdvps) : Prop := NothingToDeliver s p ∧ EntryAccepted s v p

/-- One holder more of a lock that can be shared. -/
def shareLock (l : Locks) (id : LockId) : Locks := (acquire l id .shared).getD l

/-- The locks once TDH.MEM.WR holds those of the TDR page, its blocks and the Secure EPT tree (R433). -/
def chunkLocks (l : Locks) (td : Nat) : Locks :=
  [LockId.pamt1g (pageBase td 2), .pamt2m (pageBase td 1), .pamt4k td, .sept td].foldl shareLock l

/-- The locks once TDH.VP.ENTER holds those of the TDVPR page, its blocks and the TDR page (R512, footnote 13). -/
def entryLocks (l : Locks) (v td : Nat) : Locks :=
  [LockId.pamt1g (pageBase v 2), .pamt2m (pageBase v 1), .pamt4k v, .pamt4k td].foldl shareLock l

/-! ## Guest-side calls -/

/-- The current logical processor runs the VCPU `v`; its structures and those of its TD `td` are there and readable, and
TDX is enabled (R271, R328). -/
abbrev RunsGuest (s : State) (v td : Nat) (t : Tdr) (c : Tdcs) (p : Tdvps) : Prop :=
  s.curLp < s.lps.length ∧ s.lp.shutdown = false ∧ s.lp.curVcpu = some v ∧ s.seamDisabled = false ∧
    tblGet s.vps v = some p ∧ s.ownerOf v = td ∧ tblGet s.tdrs td = some t ∧ tblGet s.tdcss td = some c ∧
    structuresReadable s v = true

/-- TDCALL of that guest reaches its function: 64-bit mode (R328). -/
abbrev GuestCalls (s : State) (v td : Nat) (t : Tdr) (c : Tdcs) (p : Tdvps) : Prop :=
  RunsGuest s v td t c p ∧ p.in64 = true

/-- A guest operation or an event on that guest is the next thing to happen: it is not in the middle of a
TDG.MEM.PAGE.ACCEPT, and no VM exit is due first: of a pending NMI, or of a debugger's (R276, R642, R725). -/
abbrev GuestActs (s : State) (v td : Nat) (t : Tdr) (c : Tdcs) (p : Tdvps) : Prop :=
  RunsGuest s v td t c p ∧ p.accept = none ∧ p.boundaryExits = []

end Sys2Proof.Safety
end

