-- ==== Sys2Proof/Certificates/Slice0/Obligations.lean ====
section
/-! DEFINITION. The statements for the provers, each about every state, every platform and every operand that its
hypotheses admit. -/

open Sys2Proof Sys2Proof.Machine Sys2Proof.Safety

/-! ## Module management: TDH.SYS.* -/

/-- TDH.SYS.INIT completes where steps 1 to 4 of its rule let it: it samples IA32_TSC_ADJUST, clears every logical
processor's LP_INIT_DONE flag, enters SYSINIT_DONE and returns RCX, RDX, R8, R9 and R10 as 0. TDH.SYS.LP.INIT then
completes on a logical processor not yet initialised: its cached guest translations are gone, LP_INIT_DONE is set, and
RCX, RDX and R8 are 0. The order of the platform checks is the model's (log entry 17). -/
def Obligations.SysInitFunctionsComplete : Prop :=
  (∀ s : State, HostCalls s → Takable s .sys → s.sysState = .sysinitPending → s.hreg .rcx = 0 →
    bit s.lp.miscEnable 22 = false → s.plat.archCapabilities &&& 0x16B = 0x16B → s.plat.platformOk = none →
    exec .tdhSysInit s =
      .next (hostReturn
        { s with sampledTscAdjust := s.lp.tscAdjust, lps := s.lps.map fun l => { l with initDone := false },
                 sysState := .sysinitDone }
        Status.success 0 [(.rcx, 0), (.rdx, 0), (.r8, 0), (.r9, 0), (.r10, 0)])) ∧
  (∀ s : State, HostCalls s → Sharable s .sys → s.sysState ≠ .sysShutdown → s.sysState ≠ .sysinitPending →
    s.lp.initDone = false → bit s.lp.miscEnable 22 = false → s.plat.archCapabilities &&& 0x16B = 0x16B →
    s.lp.tscAdjust = s.sampledTscAdjust → tblGet s.plat.platformLpOk s.curLp = none →
    exec .tdhSysLpInit s =
      .next (hostReturn (s.modLp fun l => { l with tlb := [], initDone := true }) Status.success 0
        [(.rcx, 0), (.rdx, 0), (.r8, 0)]))

/-- TDH.SYS.INFO completes in every life-cycle state in which it is allowed: TDSYSINFO_STRUCT is written at RCX and
the CMR_INFO array at R8, each under the HKID of its address and with its memory type; RDX returns 1024 and R9 returns
32. That the count returned is 32 and that 32 CMR_INFO entries are written is R485's own [derived] sentence. That memory must
be behind an operand is R271's; where there is none is a parameter (log entry 72). -/
def Obligations.SysInfoCompletes : Prop :=
  ∀ s : State, HostCalls s → s.sysState ≠ .sysShutdown → s.sysState ≠ .sysinitPending → s.lp.initDone = true →
    SharedOperand s (s.hreg .rcx) 1024 → SharedOperand s (s.hreg .r8) 512 → 1024 ≤ (s.hreg .rdx).toNat →
    32 ≤ (s.hreg .r9).toNat → SharedBacked s (s.hreg .rcx) 1024 → SharedBacked s (s.hreg .r8) 512 →
    exec .tdhSysInfo s =
      .next (hostReturn
        (writeShared (writeShared s (s.hreg .rcx).toNat (sysInfoImage s.plat)) (s.hreg .r8).toNat (cmrImage s.plat))
        Status.success 0 [(.rdx, 1024), (.r9, 32)])

/-- TDH.SYS.CONFIG completes when every TDMR_INFO that the pointer array names passes the checks of its rule: the TDMR
table is the list read, the global private HKID is R8 bits 15:0, it alone is reserved in the KOT and every other
private HKID is free, and the module enters SYSCONFIG_DONE. The clause about the KOT rests on R484's own [derived]
sentence: the lines that set HKID_RESERVED and HKID_FREE are not in the source's step list. -/
def Obligations.SysConfigCompletes : Prop :=
  ∀ (s : State) (ts : List Tdmr), HostCalls s → Takable s .sys → s.sysState = .sysinitDone →
    (∀ l ∈ s.lps, l.initDone = true) →
    1 ≤ (s.hreg .rdx).toNat → (s.hreg .rdx).toNat ≤ min 64 s.plat.maxTdmrs →
    SharedOperand s (s.hreg .rcx) 512 → SharedReadable s (s.hreg .rcx) (8 * (s.hreg .rdx).toNat) →
    checkTdmrs s 0 0 ((bytesWords (s.hreg .rdx).toNat
      (sharedBytes s (s.hreg .rcx).toNat (8 * (s.hreg .rdx).toNat))).map BitVec.toNat) = .ok ts →
    checkOverlaps ts (allPamtAreas 0 ts) = .ok () → checkCmrs s.plat 0 ts = .ok () →
    checkPamtCmrs s.plat (allPamtAreas 0 ts) = .ok () → bitsOf (s.hreg .r8) 63 16 = 0 →
    inPrivateRange s.plat (bitsOf (s.hreg .r8) 15 0) = true →
    ∃ t, exec .tdhSysConfig s = .next (hostReturn t Status.success 0 []) ∧
      t = { s with tdmrs := ts, globalHkid := bitsOf (s.hreg .r8) 15 0, kot := t.kot, pkgConfigBitmap := 0,
                   sysState := .sysconfigDone } ∧
      ∀ h, inPrivateRange s.plat h = true →
        kotAt t h = ⟨if h = bitsOf (s.hreg .r8) 15 0 then .reserved else .free, []⟩

/-- TDH.SYS.KEY.CONFIG completes on a package whose global key is not configured: the first package to call draws a
fresh key, a later one receives the key the others have; the module enters SYS_READY when every package has it. That a
later package receives the others' key is the spec's decision D24 (log entry 49), where R487 prints a random key on
every package; that a fresh key is the number `nextKey` is the model's choice (log entry 7). -/
def Obligations.SysKeyConfigCompletes : Prop :=
  ∀ s : State, HostCalls s → Takable s .sys → Takable s (.ket s.pkg) → s.sysState = .sysconfigDone →
    bit s.pkgConfigBitmap s.pkg = false → s.entropyOk = true →
    let bm := s.pkgConfigBitmap ||| bitAt true s.pkg
    let s1 := { s with pkgConfigBitmap := bm
                       sysState := if coversPackages s.plat bm then .sysReady else .sysconfigDone }
    ((∀ k ∈ s.plat.packages, bit s.pkgConfigBitmap k = false) →
      exec .tdhSysKeyConfig s =
        .next (hostReturn
          { s1 with ket := tblSet s.ket (ketKey s.pkg s.globalHkid) ⟨.module, s.nextKey, true⟩,
                    nextKey := s.nextKey + 1 } Status.success 0 [])) ∧
    (∀ k, s.plat.packages.find? (fun j => bit s.pkgConfigBitmap j) = some k →
      exec .tdhSysKeyConfig s =
        .next (hostReturn
          { s1 with
            ket := tblSet s.ket (ketKey s.pkg s.globalHkid) ⟨.module, (ketAt s k s.globalHkid).key, true⟩ }
          Status.success 0 []))

/-- TDH.SYS.TDMR.INIT completes on a TDMR that is not fully initialised: the PAMT entries of the next chunk are
initial, their lines hold zeros under the global private HKID, NEXT moves to the end of the chunk, and RDX returns NEXT
rounded down to 1GB. How many entries one call initialises is the platform's parameter (log entry 2); OWNER and BEPOCH 0
of an initial entry are the spec's decision D36 (log entry 49); that the lines hold zeros, and that a line goes whole with
the neighbouring entries in it, is the model's (log entry 69), and so is which part of the PAMT region a call locks (log
entry 67). -/
def Obligations.SysTdmrInitCompletes : Prop :=
  ∀ (s : State) (i : Nat) (t : Tdmr), HostReady s → isAligned (s.hreg .rcx).toNat (2 ^ 30) = true →
    (s.hreg .rcx).toNat < 2 ^ s.plat.addrBits →
    s.tdmrs.findIdx? (fun t => t.base == (s.hreg .rcx).toNat) = some i → s.tdmrs[i]? = some t →
    Takable s (.tdmr i) → t.next ≠ t.base + t.size →
    let hi := min (t.next + 4096 * max s.plat.tdmrInitChunk 1) (t.base + t.size)
    pamtRegionHeld s.locks t.next hi = false →
    exec .tdhSysTdmrInit s =
      .next (hostReturn
        { initPamt s t t.next hi with tdmrs := s.tdmrs.modify i fun t => { t with next := hi } }
        Status.success 0 [(.rdx, w64 (hi / 2 ^ 30 * 2 ^ 30))])

/-- TDH.SYS.LP.SHUTDOWN on every path: with the module's internal variables locked exclusively by another function
it returns TDX_SYS_BUSY; otherwise, in every life-cycle state and on a logical processor that never ran
TDH.SYS.LP.INIT, it marks the module as being shut down, blocks further SEAMCALLs on this logical processor, flushes
its cached translations and returns TDX_SUCCESS. -/
def Obligations.SysLpShutdownRule : Prop :=
  ∀ s : State, HostCalls s →
    (lockState s.locks .sys = some .exclusive →
      exec .tdhSysLpShutdown s = .next (hostReturn s Status.sysBusy 0 [])) ∧
    (lockState s.locks .sys ≠ some .exclusive →
      exec .tdhSysLpShutdown s =
        .next (hostReturn
          ({ s with sysState := .sysShutdown }.modLp fun l => { l with tlb := [], seamcallBlocked := true })
          Status.success 0 []))

/-! ## TD management and measurement: TDH.MNG.*, TDH.MR.* -/

/-- TDH.MNG.CREATE completes: the page is zeroed under the global private HKID and becomes a TDR, the HKID in RDX
becomes HKID_ASSIGNED, and the TD starts in TD_HKID_ASSIGNED with no child page. TDH.MNG.ADDCX completes on a TD whose
keys are configured and which is not initialised: the free page is zeroed under the TD's HKID, becomes a TDCX page of
the TD and counts as a child of the TDR. OWNER 0 of the TDR page and the zeros in the TDCX page are the spec's decisions
D21 and D20 (log entry 49); the type of the TDCX page and the child count are R450's own [derived] sentence. -/
def Obligations.MngCreateAddcxComplete : Prop :=
  (∀ s : State, HostReady s → OpaqueOperand s (s.hreg .rcx) 4096 → PageTakable s (s.hreg .rcx).toNat →
    Takable s .kot → bitsOf (s.hreg .rdx) 63 16 = 0 → pageFree s (s.hreg .rcx).toNat 0 = true →
    inPrivateRange s.plat (bitsOf (s.hreg .rdx) 15 0) = true →
    (kotAt s (bitsOf (s.hreg .rdx) 15 0)).state = .free →
    let td := (s.hreg .rcx).toNat
    let h := bitsOf (s.hreg .rdx) 15 0
    let s1 := zeroDirect s s.globalHkid td 4096
    exec .tdhMngCreate s =
      .next (hostReturn
        (({ s1 with tdrs := tblSet s.tdrs td (Tdr.created h) }.setKot h ⟨.assigned, (kotAt s h).wbcache⟩).assignPage
          td 0 .tdr 0)
        Status.success 0 [])) ∧
  (∀ (s : State) (t : Tdr), HostReady s → OpaqueOperand s (s.hreg .rdx) 4096 → PageTakable s (s.hreg .rdx).toNat →
    TdrPage s (s.hreg .rdx).toNat t → FreePage s (s.hreg .rcx) 0 (s.hreg .rdx).toNat → t.fatal = false → t.init = false →
    t.numTdcx < s.plat.tdcsBaseSize / 4096 → t.lifecycle = .keysConfigured →
    let a := (s.hreg .rcx).toNat
    let td := (s.hreg .rdx).toNat
    exec .tdhMngAddcx s =
      .next (hostReturn
        (((zeroDirect s t.hkid a 4096).modTdr td fun t =>
          { t with tdcxPa := t.tdcxPa ++ [a], numTdcx := t.numTdcx + 1, chldcnt := t.chldcnt + 1 }).assignPage
            a 0 .tdcx td)
        Status.success 0 []))

/-- TDH.MNG.KEY.CONFIG completes on a package on which the TD's key is not configured: the first package draws a fresh
key, a later one receives the same; when every package has it the TD is in TD_KEYS_CONFIGURED. That a later package
receives the same key is the spec's decision D24 (log entry 49), where R453 draws a random key on each package; that a
fresh key is the number `nextKey` is the model's choice (log entry 7). -/
def Obligations.MngKeyConfigCompletes : Prop :=
  ∀ (s : State) (t : Tdr), HostReady s → OpaqueOperand s (s.hreg .rcx) 4096 → PageTakable s (s.hreg .rcx).toNat →
    Takable s (.ket s.pkg) → TdrPage s (s.hreg .rcx).toNat t → t.fatal = false → t.lifecycle = .hkidAssigned →
    bit t.pkgConfigBitmap s.pkg = false → s.entropyOk = true →
    let td := (s.hreg .rcx).toNat
    let f (u : Tdr) : Tdr := { u with
      pkgConfigBitmap := u.pkgConfigBitmap ||| bitAt true s.pkg
      lifecycle := if coversPackages s.plat (u.pkgConfigBitmap ||| bitAt true s.pkg) then .keysConfigured
        else u.lifecycle }
    ((∀ k ∈ s.plat.packages, bit t.pkgConfigBitmap k = false) →
      exec .tdhMngKeyConfig s =
        .next (hostReturn
          ({ s with ket := tblSet s.ket (ketKey s.pkg t.hkid) ⟨.td td, s.nextKey, true⟩,
                    nextKey := s.nextKey + 1 }.modTdr td f) Status.success 0 [])) ∧
    (∀ k, s.plat.packages.find? (fun j => bit t.pkgConfigBitmap j) = some k →
      exec .tdhMngKeyConfig s =
        .next (hostReturn
          ({ s with ket := tblSet s.ket (ketKey s.pkg t.hkid) ⟨.td td, (ketAt s k t.hkid).key, true⟩ }.modTdr td f)
          Status.success 0 []))

/-- TDH.MNG.INIT completes when the TD_PARAMS are legal: the TD is initialised, its TDCS holds the parameters, with
TD_EPOCH 1, no VCPU, both REFCOUNTs 0, every measurement register 0, a virtual TSC that starts at 0 and an empty
Secure EPT root page; its CPUID values are those that the CPUID_CONFIG, ATTRIBUTES, XFAM and TSC frequency of the
parameters give, its MSR bitmaps and XBUFF offsets those of ATTRIBUTES, XFAM and these CPUID values; RCX is 0. The content of
the bitmaps is R662's own derivation, as it says. Which TDCX page is the root, and so the address in EPTP, is a parameter that the model
adds (log entry 21); that IA32_TSC_ADJUST is compared, and where, is R630 and log entry 66; TD_EPOCH 1, MRTD 0 and
NOTIFY_ENABLES 0 are the spec's decisions D27, D52 and D49. -/
def Obligations.MngInitCompletes : Prop :=
  ∀ (s : State) (t : Tdr) (q : TdParams), HostReady s → OpaqueOperand s (s.hreg .rcx) 4096 →
    PageTakable s (s.hreg .rcx).toNat → SharedOperand s (s.hreg .rdx) 1024 → SharedReadable s (s.hreg .rdx) 1024 →
    TdrPage s (s.hreg .rcx).toNat t → t.fatal = false → t.init = false → t.lifecycle = .keysConfigured →
    t.numTdcx = s.plat.tdcsBaseSize / 4096 →
    q = TdParams.ofBytes (sharedBytes s (s.hreg .rdx).toNat 1024) s.plat.cpuidConfig.length →
    attributesLegal s.plat q.attributes = true → xfamLegal s.plat q.xfam = true → q.maxVcpus ≠ 0 →
    eptpControlsLegal q.eptpControls = true → execControlsLegal q.execControls q.eptpControls = true →
    4 ≤ q.tscFrequency → q.tscFrequency ≤ 400 → q.reservedZero = true →
    (∀ e ∈ (s.plat.cpuidConfig.map CpuidConfig.effective).zip q.cpuid, cpuidWithin e.1.mask e.2 = true) →
    bit s.lp.miscEnable 22 = false → s.lp.tscAdjust = s.sampledTscAdjust →
    let td := (s.hreg .rcx).toNat
    ∃ c : Tdcs,
      exec .tdhMngInit s =
        .next (hostReturn
          { ((s.clearSeptPage (t.rootPage s.plat)).modTdr td fun t => { t with init := true }) with
            tdcss := tblSet s.tdcss td c } Status.success 0 [(.rcx, 0)]) ∧
      c.finalized = false ∧ c.numVcpus = 0 ∧ c.numAssocVcpus = 0 ∧ c.attributes = q.attributes ∧ c.xfam = q.xfam ∧
      c.maxVcpus = q.maxVcpus ∧ c.gpaw = bit q.execControls 0 ∧ c.eptp = (q.eptpControls ||| w64 (t.rootPage s.plat)) ∧
      c.tscFrequency = q.tscFrequency ∧ virtTsc c s.tsc = 0 ∧ c.notifyEnables = 0 ∧ c.tdEpoch = 1 ∧
      c.refcount0 = 0 ∧ c.refcount1 = 0 ∧ c.mrtd = List.replicate 48 0 ∧ c.mrconfigid = q.mrconfigid ∧
      c.mrowner = q.mrowner ∧ c.mrownerconfig = q.mrownerconfig ∧
      c.rtmr = List.replicate 4 (List.replicate 48 0) ∧ c.mrtdContext = ShaCtx.init ∧
      c.cpuidValues = (Tdcs.created s q (t.rootPage s.plat)).cpuidValues ∧ c.msrBitmaps = msrBitmaps c ∧
      c.xbuffOffsets = xbuffOffsetsFor q.xfam

/-- TDH.MNG.RD returns the field's element in R8 and changes nothing else; TDH.MNG.WR merges R8 under the writable
bits that R9 selects and returns the old value when the field is readable. -/
def Obligations.MngRdWrComplete : Prop :=
  ∀ (s : State) (t : Tdr) (c : Tdcs) (r : TdFieldRow) (i : Nat), HostReady s → TdOperand s (s.hreg .rcx) t c →
    PageSharable s (s.hreg .rcx).toNat → tdField s.plat (s.hreg .rdx) = some (r, i) →
    ((r.host c).reads = true →
      exec .tdhMngRd s = .next (hostReturn s Status.success 0 [(.r8, readTdField s t c i r.field)])) ∧
    ((r.host c).writes = true → r.writeMask &&& s.hreg .r9 ≠ 0 →
      exec .tdhMngWr s =
        .next (hostReturn
          (s.modTdcs (s.hreg .rcx).toNat fun u => writeTdField u r.field
            (mergeMask (readTdField s t c i r.field) (s.hreg .r8) (r.writeMask &&& s.hreg .r9)))
          Status.success 0 [(.r8, readTdField s t c i r.field)]))

/-- TDH.MNG.VPFLUSHDONE completes when no VCPU of the TD is associated with a logical processor: the TD is TD_BLOCKED,
its HKID is HKID_FLUSHED and every write-back scope owes a write-back. TDH.MNG.KEY.FREEID completes when every scope
has written back: the HKID is HKID_FREE and the TD is TD_TEARDOWN. -/
def Obligations.TeardownFunctionsComplete : Prop :=
  (∀ (s : State) (t : Tdr), HostReady s → OpaqueOperand s (s.hreg .rcx) 4096 → PageTakable s (s.hreg .rcx).toNat →
    Takable s .kot → TdrPage s (s.hreg .rcx).toNat t → (t.lifecycle = .hkidAssigned ∨ t.lifecycle = .keysConfigured) →
    (kotAt s t.hkid).state = .assigned →
    (t.init = true → ∃ c, TdcsOf s (s.hreg .rcx).toNat t c ∧ c.numAssocVcpus = 0) →
    exec .tdhMngVpflushdone s =
      .next (hostReturn
        ((s.setKot t.hkid ⟨.flushed, s.plat.scopes⟩).modTdr (s.hreg .rcx).toNat fun t =>
          { t with lifecycle := .blocked }) Status.success 0 [])) ∧
  (∀ (s : State) (t : Tdr), HostReady s → OpaqueOperand s (s.hreg .rcx) 4096 → PageTakable s (s.hreg .rcx).toNat →
    Takable s .kot → TdrPage s (s.hreg .rcx).toNat t → t.lifecycle = .blocked →
    (kotAt s t.hkid).state = .flushed → (kotAt s t.hkid).wbcache = [] →
    exec .tdhMngKeyFreeid s =
      .next (hostReturn
        ((s.setKot t.hkid ⟨.free, []⟩).modTdr (s.hreg .rcx).toNat fun t => { t with lifecycle := .teardown })
        Status.success 0 []))

/-- TDH.MNG.KEY.RECLAIMID: it does nothing but return TDX_SUCCESS, whatever RCX holds (R455's own [derived] line) and
whatever is locked; before the module is ready, and while it is being shut down, the common checks answer instead (the
spec's own decision D25, log entry 49). -/
def Obligations.MngKeyReclaimidRule : Prop :=
  ∀ s : State, HostCalls s →
    (s.sysState = .sysReady → exec .tdhMngKeyReclaimid s = .next (hostReturn s Status.success 0 [])) ∧
    (s.sysState = .sysShutdown → exec .tdhMngKeyReclaimid s = .next (hostReturn s Status.sysShutdown 0 [])) ∧
    (s.sysState ≠ .sysReady → s.sysState ≠ .sysShutdown →
      exec .tdhMngKeyReclaimid s = .next (hostReturn s Status.sysNotReady 0 []))

/-- TDH.MR.EXTEND completes on a 256-byte chunk of a present 4KB page of a TD that is not finalised: MRTD's running
value absorbs the three 128-byte buffers; RCX and RDX are 0. -/
def Obligations.MrExtendCompletes : Prop :=
  ∀ (s : State) (t : Tdr) (c : Tdcs) (p : SeptPos), HostReady s → isAligned (s.hreg .rcx).toNat 256 = true →
    TdOperand s (s.hreg .rdx) t c → PageTakable s (s.hreg .rdx).toNat → Sharable s (.sept (s.hreg .rdx).toNat) →
    c.privateGpa (s.hreg .rcx).toNat = true → c.finalized = false →
    septWalk s c t.hkid (s.hreg .rcx).toNat (some 0) = .ok p → p.entry.state = .present →
    poisoned s t.hkid (p.entry.hpa + (s.hreg .rcx).toNat % 4096) 256 = false →
    let chunk := readBytes s t.hkid (p.entry.hpa + (s.hreg .rcx).toNat % 4096) 256
    exec .tdhMrExtend s =
      .next (hostReturn
        (s.modTdcs (s.hreg .rdx).toNat fun c => { c with
          mrtdContext := ((c.mrtdContext.update (extendBlock (s.hreg .rcx).toNat)).update (chunk.take 128)).update
            (chunk.drop 128) })
        Status.success 0 [(.rcx, 0), (.rdx, 0)])

/-- TDH.MR.FINALIZE, its checks and its effect: the checks of CheckHpa, the locks, the page type, the TD's state and
FINALIZED in their order, each with its status and no other effect; then MRTD becomes the SHA-384 digest and FINALIZED
is set. The order in which the checks answer is the spec's decision D1, the range error for a block not ready its
decision D63 (log entry 49). -/
def Obligations.MrFinalizeRule : Prop :=
  ∀ s : State, HostCalls s → s.sysState = .sysReady →
    let pa := s.hreg .rcx
    let fails (v d : Nat) : Prop := exec .tdhMrFinalize s = .next (hostReturn s v d [])
    ((2 ^ s.plat.maxPa ≤ pa.toNat ∨ isAligned pa.toNat 4096 = false ∨ hkidOf s.plat pa.toNat ≠ 0) →
      fails Status.operandInvalid Operand.rcx) ∧
    (pa.toNat < 2 ^ s.plat.maxPa → isAligned pa.toNat 4096 = true → hkidOf s.plat pa.toNat = 0 →
      blockReady s pa.toNat = false → fails Status.operandAddrRangeError Operand.rcx) ∧
    (OpaqueOperand s pa 4096 →
      ((lockState s.locks (.pamt1g (pageBase pa.toNat 2)) = some .exclusive ∨
          lockState s.locks (.pamt2m (pageBase pa.toNat 1)) = some .exclusive ∨
          lockState s.locks (.pamt4k pa.toNat) ≠ none) → fails Status.operandBusy Operand.rcx) ∧
      (PageTakable s pa.toNat → pageIs s pa.toNat 0 .tdr = false → fails Status.pageMetadataIncorrect Operand.rcx) ∧
      (PageTakable s pa.toNat → ∀ t, TdrPage s pa.toNat t →
        (t.fatal = true → fails Status.tdFatal 0) ∧
        (t.fatal = false → t.lifecycle ≠ .keysConfigured → fails Status.tdKeysNotConfigured 0) ∧
        (t.fatal = false → t.lifecycle = .keysConfigured → t.init = false → fails Status.tdNotInitialized 0) ∧
        (∀ c, TdUsable t → TdcsOf s pa.toNat t c →
          (c.finalized = true → fails Status.tdFinalized 0) ∧
          (c.finalized = false →
            exec .tdhMrFinalize s =
              .next (hostReturn
                (s.modTdcs pa.toNat fun c => { c with mrtd := c.mrtdContext.final, finalized := true })
                Status.success 0 [])))))

/-! ## Secure EPT and pages: TDH.MEM.* -/

/-- TDH.MEM.SEPT.ADD completes at a free entry of levels 1 to 4: the new page is zeroed under the TD's HKID, its 512
entries are free, the entry becomes a present non-leaf that points to it, the page is PT_EPT of the TD; RCX and RDX
return the new entry. RWX = 7 in the entry returned is the spec's decision D66 (log entry 49). -/
def Obligations.MemSeptAddCompletes : Prop :=
  ∀ (s : State) (t : Tdr) (c : Tdcs) (level gpa : Nat) (p : SeptPos), HostReady s →
    TdOperand s (s.hreg .rdx) t c → TreeTakable s (s.hreg .rdx).toNat → MapOperand (s.hreg .rcx) c 1 4 level gpa →
    FreePage s (s.hreg .r8) 0 (s.hreg .rdx).toNat → septWalk s c t.hkid gpa (some level) = .ok p →
    p.entry.state = .free →
    let td := (s.hreg .rdx).toNat
    let a := (s.hreg .r8).toNat
    exec .tdhMemSeptAdd s =
      .next (hostReturn
        (((((zeroDirect s t.hkid a 4096).clearSeptPage a).setSept p.addr ⟨.present, false, a⟩).modTdr td fun t =>
          { t with chldcnt := t.chldcnt + 1 }).assignPage a 0 .ept td)
        Status.success 0 [(.rcx, 7 ||| w64 a), (.rdx, w64 (level + 0x400))])

/-- TDH.MEM.SEPT.RD returns the entry in RCX and its level and state in RDX; TDH.PHYMEM.PAGE.RDMD returns the PAMT
entry of the page that contains RCX. Neither changes anything else. -/
def Obligations.ReadingFunctionsComplete : Prop :=
  (∀ (s : State) (t : Tdr) (c : Tdcs) (level gpa : Nat) (p : SeptPos), HostReady s →
    TdOperand s (s.hreg .rdx) t c → PageSharable s (s.hreg .rdx).toNat → Sharable s (.sept (s.hreg .rdx).toNat) →
    MapOperand (s.hreg .rcx) c 0 4 level gpa → septWalk s c t.hkid gpa (some level) = .ok p →
    exec .tdhMemSeptRd s =
      .next (hostReturn s Status.success 0 [(.rcx, septEntryOut c p.entry), (.rdx, septInfoOut p.level p.entry)])) ∧
  (∀ s : State, HostReady s → OpaqueOperand s (s.hreg .rcx) 4096 → PageSharable s (s.hreg .rcx).toNat →
    let e := (pamtWalk s (s.hreg .rcx).toNat).1
    exec .tdhPhymemPageRdmd s =
      .next (hostReturn s Status.success 0
        [(.rcx, w64 e.pt.code), (.rdx, w64 e.owner), (.r8, w64 (pamtWalk s (s.hreg .rcx).toNat).2), (.r9, e.bepoch),
         (.r10, 0), (.r11, 0)]))

/-- TDH.MEM.SEPT.REMOVE completes on a blocked, tracked, empty Secure EPT page: the parent entry is free, the page is
no longer assigned, and RCX returns its address. That the page's lines may still be modified in the caches is kept in
the field `stale` (log entry 56). -/
def Obligations.MemSeptRemoveCompletes : Prop :=
  ∀ (s : State) (t : Tdr) (c : Tdcs) (level gpa : Nat) (p : SeptPos), HostReady s →
    TdOperand s (s.hreg .rdx) t c → TreeTakable s (s.hreg .rdx).toNat → MapOperand (s.hreg .rcx) c 1 4 level gpa →
    septWalk s c t.hkid gpa (some level) = .ok p → p.entry.leaf = false → p.entry.state = .blocked →
    Takable s (.pamt4k p.entry.hpa) → pamtReadable s p.entry.hpa = true → p.entry.hpa ≠ (s.hreg .rdx).toNat →
    tlbTrackingDone c (pamtAt s p.entry.hpa 0).bepoch = true →
    pageReadable s t.hkid p.entry.hpa = true → septPageFree s p.entry.hpa = true →
    exec .tdhMemSeptRemove s =
      .next (hostReturn
        (((s.modTdr (s.hreg .rdx).toNat fun t => { t with chldcnt := t.chldcnt - 1 }).freePage p.entry.hpa 0).setSept
          p.addr SeptEntry.free)
        Status.success 0 [(.rcx, w64 p.entry.hpa), (.rdx, 0)])

/-- TDH.MEM.PAGE.ADD completes on a TD that is not finalised at a free 4KB entry: the source page is copied under the
TD's HKID, the page is mapped present, MRTD absorbs the 128-byte block with the GPA, the page is PT_REG of the TD. -/
def Obligations.MemPageAddCompletes : Prop :=
  ∀ (s : State) (t : Tdr) (c : Tdcs) (gpa : Nat) (p : SeptPos), HostReady s → TdOperand s (s.hreg .rdx) t c →
    PageTakable s (s.hreg .rdx).toNat → Takable s (.sept (s.hreg .rdx).toNat) →
    MapOperand (s.hreg .rcx) c 0 0 0 gpa → c.finalized = false → FreePage s (s.hreg .r8) 0 (s.hreg .rdx).toNat →
    SharedOperand s (s.hreg .r9) 4096 → septWalk s c t.hkid gpa (some 0) = .ok p → p.entry.state = .free →
    SharedReadable s (s.hreg .r9) 4096 →
    let td := (s.hreg .rdx).toNat
    let a := (s.hreg .r8).toNat
    let src := sharedBytes s (s.hreg .r9).toNat 4096
    exec .tdhMemPageAdd s =
      .next (hostReturn
        (((((writeDirect s t.hkid a src).setSept p.addr ⟨.present, true, a⟩).modTdcs td fun c =>
          { c with mrtdContext := c.mrtdContext.update (pageAddBlock gpa) }).modTdr td fun t =>
          { t with chldcnt := t.chldcnt + 1 }).assignPage a 0 .reg td)
        Status.success 0 [(.rcx, 0), (.rdx, 0)])

/-- TDH.MEM.PAGE.AUG completes for a 4KB or 2MB free page at a free entry: the page is mapped pending, and its content
is not touched. On a build that refuses a TD not yet finalised, which R421 (a) and the spec's decision D3 (log entry 49)
leave to the build, here for a finalised one. -/
def Obligations.MemPageAugCompletes : Prop :=
  ∀ (s : State) (t : Tdr) (c : Tdcs) (level gpa : Nat) (p : SeptPos), HostReady s →
    TdOperand s (s.hreg .rdx) t c → TreeTakable s (s.hreg .rdx).toNat → MapOperand (s.hreg .rcx) c 0 1 level gpa →
    (s.plat.augNeedsFinalized = true → c.finalized = true) →
    FreePage s (s.hreg .r8) level (s.hreg .rdx).toNat → septWalk s c t.hkid gpa (some level) = .ok p →
    p.entry.state = .free →
    let td := (s.hreg .rdx).toNat
    let a := (s.hreg .r8).toNat
    exec .tdhMemPageAug s =
      .next (hostReturn
        (((s.setSept p.addr ⟨.pending, true, a⟩).modTdr td fun t =>
          { t with chldcnt := t.chldcnt + 512 ^ level }).assignPage a level .reg td)
        Status.success 0 [(.rcx, 0), (.rdx, 0)])

/-- TDH.MEM.PAGE.DEMOTE completes on a blocked, tracked 2MB or 1GB page: its 512 parts become pages of the next level
down, mapped by the new Secure EPT page in the state the large page would have unblocked to. For a pending page the
states (children pending, parent present) are the spec's decision D4 (log entry 49), where R422's step 11 prints
another. -/
def Obligations.MemPageDemoteCompletes : Prop :=
  ∀ (s : State) (t : Tdr) (c : Tdcs) (level gpa : Nat) (p : SeptPos), HostReady s →
    TdOperand s (s.hreg .rdx) t c → TreeTakable s (s.hreg .rdx).toNat → MapOperand (s.hreg .rcx) c 1 2 level gpa →
    FreePage s (s.hreg .r8) 0 (s.hreg .rdx).toNat → septWalk s c t.hkid gpa (some level) = .ok p →
    p.entry.leaf = true → (p.entry.state = .blocked ∨ p.entry.state = .pendingBlocked) →
    Takable s (pamtLock p.entry.hpa level) → pamtReadable s p.entry.hpa = true →
    p.entry.hpa ≠ pageBase (s.hreg .rdx).toNat level → p.entry.hpa ≠ pageBase (s.hreg .r8).toNat level →
    tlbTrackingDone c (pamtAt s p.entry.hpa level).bepoch = true →
    let td := (s.hreg .rdx).toNat
    let a := (s.hreg .r8).toNat
    let child (i : Nat) : SeptEntry :=
      ⟨if p.entry.state = .blocked then .present else .pending, true, p.entry.hpa + i * 2 ^ (12 + 9 * (level - 1))⟩
    exec .tdhMemPageDemote s =
      .next (hostReturn
        ((((((zeroDirect (assignPages (s.freePage p.entry.hpa level) p.entry.hpa (level - 1) .reg td 512) t.hkid a
          4096).fillSeptPage a child).setSept p.addr ⟨.present, false, a⟩).modTdr td fun t =>
          { t with chldcnt := t.chldcnt + 1 })).assignPage a 0 .ept td)
        Status.success 0 [(.rcx, 0), (.rdx, 0)])

/-- TDH.MEM.PAGE.PROMOTE completes when the blocked, tracked Secure EPT page maps 512 present consecutive pages of an
aligned large page: the entry becomes a present leaf of the large page and RCX returns the released Secure EPT page,
whose lines may still be modified in the caches (the field `stale`, log entry 56). -/
def Obligations.MemPagePromoteCompletes : Prop :=
  ∀ (s : State) (t : Tdr) (c : Tdcs) (level gpa : Nat) (p : SeptPos) (big : Nat), HostReady s →
    TdOperand s (s.hreg .rdx) t c → TreeTakable s (s.hreg .rdx).toNat → MapOperand (s.hreg .rcx) c 1 2 level gpa →
    septWalk s c t.hkid gpa (some level) = .ok p → p.entry.leaf = false → p.entry.state = .blocked →
    Takable s (.pamt4k p.entry.hpa) → pamtReadable s p.entry.hpa = true → p.entry.hpa ≠ (s.hreg .rdx).toNat →
    tlbTrackingDone c (pamtAt s p.entry.hpa 0).bepoch = true → pageReadable s t.hkid p.entry.hpa = true →
    big = (septAt s p.entry.hpa).hpa → Takable s (pamtLock big level) → pamtReadable s big = true →
    isAligned big (2 ^ (12 + 9 * level)) = true → big ≠ pageBase (s.hreg .rdx).toNat level →
    (∀ i, i < 512 →
      septAt s (p.entry.hpa + 8 * i) = ⟨.present, true, big + i * 2 ^ (12 + 9 * (level - 1))⟩) →
    exec .tdhMemPagePromote s =
      .next (hostReturn
        ((((((freePages s big (level - 1) 512).assignPage big level .reg (s.hreg .rdx).toNat).clearSeptPage
          p.entry.hpa).setSept p.addr ⟨.present, true, big⟩).modTdr (s.hreg .rdx).toNat fun t =>
          { t with chldcnt := t.chldcnt - 1 }).freePage p.entry.hpa 0)
        Status.success 0 [(.rcx, w64 p.entry.hpa), (.rdx, 0)])

/-- TDH.MEM.PAGE.RELOCATE completes on a blocked, tracked 4KB page: the content of a present page is copied under the
TD's HKID, that of a pending page is not; the entry maps the new page, unblocked, and the old page is free. -/
def Obligations.MemPageRelocateCompletes : Prop :=
  ∀ (s : State) (t : Tdr) (c : Tdcs) (gpa : Nat) (p : SeptPos), HostReady s → TdOperand s (s.hreg .rdx) t c →
    TreeTakable s (s.hreg .rdx).toNat → MapOperand (s.hreg .rcx) c 0 0 0 gpa →
    FreePage s (s.hreg .r8) 0 (s.hreg .rdx).toNat → septWalk s c t.hkid gpa (some 0) = .ok p → p.entry.leaf = true →
    Takable s (.pamt4k p.entry.hpa) → pamtReadable s p.entry.hpa = true → p.entry.hpa ≠ (s.hreg .rdx).toNat →
    p.entry.hpa ≠ (s.hreg .r8).toNat → tlbTrackingDone c (pamtAt s p.entry.hpa 0).bepoch = true →
    let td := (s.hreg .rdx).toNat
    let a := (s.hreg .r8).toNat
    let moved (u : State) (e : SeptState) : State :=
      ((u.freePage p.entry.hpa 0).assignPage a 0 .reg td).setSept p.addr ⟨e, true, a⟩
    (p.entry.state = .blocked → pageReadable s t.hkid p.entry.hpa = true →
      exec .tdhMemPageRelocate s =
        .next (hostReturn
          (moved (writeDirect s t.hkid a (readBytes s t.hkid p.entry.hpa 4096)) .present)
          Status.success 0 [(.rcx, 0), (.rdx, 0)])) ∧
    (p.entry.state = .pendingBlocked →
      exec .tdhMemPageRelocate s =
        .next (hostReturn (moved s .pending) Status.success 0 [(.rcx, 0), (.rdx, 0)]))

/-- TDH.MEM.PAGE.REMOVE completes on a blocked, tracked page of any of the three sizes: the entry is free, the page is
no longer assigned, CHLDCNT falls by the number of 4KB pages, and RCX returns the page. -/
def Obligations.MemPageRemoveCompletes : Prop :=
  ∀ (s : State) (t : Tdr) (c : Tdcs) (level gpa : Nat) (p : SeptPos), HostReady s →
    TdOperand s (s.hreg .rdx) t c → TreeTakable s (s.hreg .rdx).toNat → MapOperand (s.hreg .rcx) c 0 2 level gpa →
    septWalk s c t.hkid gpa (some level) = .ok p → p.entry.leaf = true →
    (p.entry.state = .blocked ∨ p.entry.state = .pendingBlocked) →
    Takable s (pamtLock p.entry.hpa level) → pamtReadable s p.entry.hpa = true →
    p.entry.hpa ≠ pageBase (s.hreg .rdx).toNat level →
    tlbTrackingDone c (pamtAt s p.entry.hpa level).bepoch = true →
    exec .tdhMemPageRemove s =
      .next (hostReturn
        (((s.modTdr (s.hreg .rdx).toNat fun t => { t with chldcnt := t.chldcnt - 512 ^ level }).freePage
          p.entry.hpa level).setSept p.addr SeptEntry.free)
        Status.success 0 [(.rcx, w64 p.entry.hpa), (.rdx, 0)])

/-- TDH.MEM.RANGE.BLOCK completes on an entry that is neither free nor blocked and records TD_EPOCH in the PAMT entry
of what it maps, unless a guest's acceptance holds the pending entry and wins the race for it: then it returns
TDX_OPERAND_BUSY (which of the two wins is the environment's choice, log entry 70; the status is the spec's decision
D6). TDH.MEM.RANGE.UNBLOCK completes on a blocked, tracked one and gives it back its state. -/
def Obligations.MemRangeBlockUnblockComplete : Prop :=
  ∀ (s : State) (t : Tdr) (c : Tdcs) (level gpa : Nat) (p : SeptPos), HostReady s →
    TdOperand s (s.hreg .rdx) t c → TreeTakable s (s.hreg .rdx).toNat → MapOperand (s.hreg .rcx) c 0 4 level gpa →
    septWalk s c t.hkid gpa (some level) = .ok p → pamtReadable s p.entry.hpa = true →
    let loses := s.raceLost = true ∧ p.entry.state = .pending ∧ lockState s.locks (.septEntry p.addr) ≠ none
    let mapped := if p.entry.leaf then p.level else 0
    (loses → exec .tdhMemRangeBlock s =
      .next (hostReturn s Status.operandBusy Operand.sept [(.rcx, 0), (.rdx, 0)])) ∧
    ((p.entry.state = .present ∨ p.entry.state = .pending) → ¬ loses →
      exec .tdhMemRangeBlock s =
        .next (hostReturn
          ((s.setSept p.addr
            ⟨if p.entry.state = .present then .blocked else .pendingBlocked, p.entry.leaf, p.entry.hpa⟩).setBepoch
            p.entry.hpa mapped c.tdEpoch)
          Status.success 0 [(.rcx, 0), (.rdx, 0)])) ∧
    ((p.entry.state = .blocked ∨ p.entry.state = .pendingBlocked) →
      tlbTrackingDone c (pamtAt s p.entry.hpa mapped).bepoch = true →
      exec .tdhMemRangeUnblock s =
        .next (hostReturn
          (s.setSept p.addr
            ⟨if p.entry.state = .blocked then .present else .pending, p.entry.leaf, p.entry.hpa⟩)
          Status.success 0 [(.rcx, 0), (.rdx, 0)]))

/-- TDH.MEM.RD and TDH.MEM.WR complete on an aligned 8-byte chunk of a present private page of a debuggable TD: the
chunk is read under the TD's HKID into R8, or written from R8, R8 then holding the old content. Where the environment lets
other agents act between the read and the write, TDH.MEM.WR is two steps: the first reads, keeps its locks and changes no
register; the second writes R8's data over whatever the chunk then holds, gives the locks back and returns what the first
has read, whatever other agents have done meanwhile; the host does nothing else on that logical processor in between. That
the two steps are chosen by the environment's fields, and that the function goes on even after TDX has been disabled, is the
model's choice (log entry 91). -/
def Obligations.MemRdWrComplete : Prop :=
  (∀ (s : State) (t : Tdr) (c : Tdcs) (p : SeptPos), HostReady s → isAligned (s.hreg .rcx).toNat 8 = true →
    TdOperand s (s.hreg .rdx) t c → PageSharable s (s.hreg .rdx).toNat → Sharable s (.sept (s.hreg .rdx).toNat) →
    c.privateGpa (s.hreg .rcx).toNat = true → c.debug = true →
    septWalk s c t.hkid (s.hreg .rcx).toNat none = .ok p → p.entry.state = .present →
    poisoned s t.hkid (p.entry.hpa + (s.hreg .rcx).toNat % 2 ^ (12 + 9 * p.level)) 8 = false →
    let a := p.entry.hpa + (s.hreg .rcx).toNat % 2 ^ (12 + 9 * p.level)
    exec .tdhMemRd s =
      .next (hostReturn s Status.success 0 [(.rcx, 0), (.rdx, 0), (.r8, read64 s t.hkid a)]) ∧
    (s.lp.memWr = none → s.lp.yieldAt = none →
      exec .tdhMemWr s =
        .next (hostReturn (writeCached s t.hkid a (leBytes 8 (s.hreg .r8).toNat)) Status.success 0
          [(.rcx, septEntryOut c p.entry), (.rdx, septInfoOut p.level p.entry), (.r8, read64 s t.hkid a)])) ∧
    (s.lp.memWr = none → s.lp.yieldAt ≠ none →
      exec .tdhMemWr s =
        .next ({ s with locks := chunkLocks s.locks (s.hreg .rdx).toNat }.modLp fun l =>
          { l with memWr := some ⟨(s.hreg .rdx).toNat, a, t.hkid, septEntryOut c p.entry, septInfoOut p.level p.entry,
              read64 s t.hkid a⟩ }))) ∧
  (∀ (s : State) (r : MemWrRun), s.curLp < s.lps.length → s.lp.shutdown = false → s.lp.memWr = some r →
    let s1 := { s with locks := releaseChunk s.locks r.tdr }.modLp fun l => { l with memWr := none }
    exec .tdhMemWr s =
      .next (hostReturn (writeCached s1 r.hkid r.hpa (leBytes 8 (s.hreg .r8).toNat)) Status.success 0
        [(.rcx, r.rcx), (.rdx, r.rdx), (.r8, r.old)]) ∧
    (s.lp.curVcpu = none → ∀ op, hostStep s op = .refused .notEnabled))

/-- TDH.MEM.TRACK completes when no logical processor still runs a VCPU of the TD in the previous epoch, and fails
with TDX_PREVIOUS_TLB_EPOCH_BUSY when one does: TD_EPOCH grows by 1 only in the first case. It holds while VCPUs run:
their entry locks share the TDR page, which this function locks in shared mode too. -/
def Obligations.MemTrackAdvancesEpoch : Prop :=
  ∀ (s : State) (t : Tdr) (c : Tdcs), HostCalls s → s.sysState = .sysReady → TdOperand s (s.hreg .rcx) t c →
    lockState s.locks (.pamt1g (pageBase (s.hreg .rcx).toNat 2)) ≠ some .exclusive →
    lockState s.locks (.pamt2m (pageBase (s.hreg .rcx).toNat 1)) ≠ some .exclusive →
    lockState s.locks (.pamt4k (s.hreg .rcx).toNat) ≠ some .exclusive →
    lockState s.locks (.epoch (s.hreg .rcx).toNat) = none →
    let previous := if c.tdEpoch.toNat % 2 = 0 then c.refcount1 else c.refcount0
    (previous = 0 →
      exec .tdhMemTrack s =
        .next (hostReturn (s.modTdcs (s.hreg .rcx).toNat fun c => { c with tdEpoch := c.tdEpoch + 1 })
          Status.success 0 [])) ∧
    (previous ≠ 0 → exec .tdhMemTrack s = .next (hostReturn s Status.previousTlbEpochBusy 0 []))

/-! ## Physical memory: TDH.PHYMEM.* -/

/-- TDH.PHYMEM.CACHE.WB: started with an HKID in HKID_FLUSHED, or resumed after an interruption, and with no interrupt
pending, it writes back the scope's modified lines, clears the scope's bit in the bitmap of each of those HKIDs and
succeeds; an interrupt noticed after `n` lines makes it interrupted and resumable with those lines written back; with no
HKID flushed it says so; a resumption of nothing fails. That a line is the unit of the interruption point, and that the
environment says after how many, is the model's choice (log entries 16 and 54); the status of a resumption of nothing is
the spec's decision D29. -/
def Obligations.PhymemCacheWbCompletes : Prop :=
  ∀ s : State, HostReady s → Sharable s .kot → Takable s (.wbt (s.plat.scopeOf s.curLp)) →
    let scope := s.plat.scopeOf s.curLp
    let run (set : List Nat) : State :=
      hostReturn (clearScope ((writeBackScope s scope).setWbt scope ⟨none, set⟩) scope set) Status.success 0 []
    let stopped (n : Nat) (set : List Nat) : State :=
      hostReturn ((cleanEntries s ((scopeEntries s scope).take n)).setWbt scope ⟨some n, set⟩)
        Status.interruptedResumable 0 []
    (s.hreg .rcx = 0 → flushedHkids s ≠ [] → s.lp.intrPending = none →
      exec .tdhPhymemCacheWb s = .next (run (flushedHkids s))) ∧
    (∀ n, s.hreg .rcx = 0 → flushedHkids s ≠ [] → s.lp.intrPending = some n →
      exec .tdhPhymemCacheWb s = .next (stopped n (flushedHkids s))) ∧
    (s.hreg .rcx = 0 → flushedHkids s = [] →
      exec .tdhPhymemCacheWb s =
        .next (hostReturn (s.setWbt scope ⟨none, []⟩) Status.noHkidReadyToWbcache 0 [])) ∧
    (s.hreg .rcx = 1 → (wbtAt s scope).intrPoint.isSome = true → s.lp.intrPending = none →
      exec .tdhPhymemCacheWb s = .next (run (wbtAt s scope).hkidSet)) ∧
    (∀ n, s.hreg .rcx = 1 → (wbtAt s scope).intrPoint.isSome = true → s.lp.intrPending = some n →
      exec .tdhPhymemCacheWb s = .next (stopped n (wbtAt s scope).hkidSet)) ∧
    (s.hreg .rcx = 1 → (wbtAt s scope).intrPoint = none →
      exec .tdhPhymemCacheWb s = .next (hostReturn s Status.wbcacheResumeError 0 []))

/-- TDH.PHYMEM.PAGE.RECLAIM completes for a page of a TD in TD_TEARDOWN and for a TDR page without children: the page
is no longer assigned, its control structure is gone, and RCX, RDX and R8 return its former type, owner and size. That
CHLDCNT falls by the number of 4KB pages, 512 ^ level, is R482's own [derived] sentence: the source says only that it is
atomically decremented. That the structure of a reclaimed root page is forgotten is the model's inference (log entry
22), that the TDR's lines may still be modified in the caches is kept in the field `stale` (log entry 56); the zero
outputs are the spec's decision D31. -/
def Obligations.PhymemPageReclaimCompletes : Prop :=
  ∀ (s : State) (e : PamtEntry) (level : Nat) (t : Tdr), HostReady s → OpaqueOperand s (s.hreg .rcx) 4096 →
    pamtWalk s (s.hreg .rcx).toNat = (e, level) → isAligned (s.hreg .rcx).toNat (2 ^ (12 + 9 * level)) = true →
    t.lifecycle = .teardown →
    let a := (s.hreg .rcx).toNat
    (level = 0 → PageTakable s a) → (level = 1 → Sharable s (.pamt1g (pageBase a 2)) ∧ Takable s (.pamt2m a)) →
    (level = 2 → Takable s (.pamt1g a)) →
    let outs : List (Reg × Word) :=
      [(.rcx, w64 e.pt.code), (.rdx, w64 e.owner), (.r8, w64 level), (.r9, 0), (.r10, 0), (.r11, 0)]
    (e.pt = .tdr → level = 0 → pageReadable s s.globalHkid a = true → tblGet s.tdrs a = some t → t.chldcnt = 0 →
      exec .tdhPhymemPageReclaim s =
        .next (hostReturn
          ({ s with tdrs := tblDel s.tdrs a, tdcss := tblDel s.tdcss a }.freePage a 0) Status.success 0 outs)) ∧
    (e.pt ≠ .nda → e.pt ≠ .rsvd → e.pt ≠ .tdr → (level = 0 → e.owner ≠ a) → Sharable s (.pamt4k e.owner) →
      pamtReadable s e.owner = true →
      pageReadable s s.globalHkid e.owner = true → tblGet s.tdrs e.owner = some t →
      let s1 := s.modTdr e.owner fun t => { t with chldcnt := t.chldcnt - 512 ^ level }
      exec .tdhPhymemPageReclaim s =
        .next (hostReturn
          ((if e.pt = .tdvpr then { s1 with vps := tblDel s1.vps a } else s1).freePage a level)
          Status.success 0 outs))

/-- TDH.PHYMEM.PAGE.WBINVD completes on a page that is not assigned: the cache lines of that page under the HKID of the
operand are written back and invalidated; lines of the module's own that may be modified there are among them (log
entry 56). -/
def Obligations.PhymemPageWbinvdCompletes : Prop :=
  ∀ s : State, HostReady s → OpaqueOperand s (clearHkid s.plat (s.hreg .rcx)) 4096 →
    PageSharable s (clearHkid s.plat (s.hreg .rcx)).toNat →
    (pamtWalk s (clearHkid s.plat (s.hreg .rcx)).toNat).1.pt = .nda →
    exec .tdhPhymemPageWbinvd s =
      .next (hostReturn
        (flushPage s (hkidOf s.plat (s.hreg .rcx).toNat) (clearHkid s.plat (s.hreg .rcx)).toNat)
        Status.success 0 [])

/-! ## VCPUs: TDH.VP.* -/

/-- TDH.VP.CREATE completes on a TD that is not finalised: the page is zeroed under the TD's HKID, becomes a TDVPR
page, and the VCPU is VCPU_UNINITIALIZED. The other initial fields (NUM_TDVPX 0, ASSOC_LPID -1 and the rest of
`Tdvps.created`) are R511's own [derived] sentence: step 9 prints no list. TDH.VP.ADDCX completes on an uninitialised VCPU that still needs a page: the
page is zeroed under the TD's HKID and becomes a TDVPX page of the VCPU. -/
def Obligations.VpCreateAddcxComplete : Prop :=
  (∀ (s : State) (t : Tdr) (c : Tdcs), HostReady s → TdOperand s (s.hreg .rdx) t c →
    PageSharable s (s.hreg .rdx).toNat → c.finalized = false → FreePage s (s.hreg .rcx) 0 (s.hreg .rdx).toNat →
    let v := (s.hreg .rcx).toNat
    let td := (s.hreg .rdx).toNat
    let s1 := (zeroDirect s t.hkid v 4096).modTdr td fun t => { t with chldcnt := t.chldcnt + 1 }
    exec .tdhVpCreate s =
      .next (hostReturn ({ s1 with vps := tblSet s1.vps v (Tdvps.created v) }.assignPage v 0 .tdvpr td)
        Status.success 0 [])) ∧
  (∀ (s : State) (td : Nat) (t : Tdr) (c : Tdcs) (p : Tdvps), HostReady s →
    VcpuOperand s (s.hreg .rdx) td t c p → PageTakable s (s.hreg .rdx).toNat → TdUsable t → c.finalized = false →
    p.vcpuState = .uninitialized →
    FreePage s (s.hreg .rcx) 0 td → s.hreg .rcx ≠ s.hreg .rdx → p.numTdvpx < s.plat.tdvpsBaseSize / 4096 - 1 →
    let x := (s.hreg .rcx).toNat
    exec .tdhVpAddcx s =
      .next (hostReturn
        ((((zeroDirect s t.hkid x 4096).modVp (s.hreg .rdx).toNat fun p =>
          { p with numTdvpx := p.numTdvpx + 1, pagePa := p.pagePa ++ [x] }).modTdr td fun t =>
          { t with chldcnt := t.chldcnt + 1 }).assignPage x 0 .tdvpx td)
        Status.success 0 []))

/-- TDH.VP.INIT completes on an uninitialised VCPU with all its pages: the VCPU gets the next index, its initial
registers and RDX in RCX and R8, is ready to run, and is associated with this logical processor. That the association adds 1 to
NUM_ASSOC_VCPUS and makes LAUNCHED FALSE is R517's own [derived] sentence. XCR0 = 1 is general
knowledge, as R169 itself says (log entry 52); the VMCS encodings behind the field names, and so the last clause, are
presumed (log entry 47); that the check of the initial CR0 and CR4 against the platform comes here, and what its failure
would do, is the model's reading of R173 (log entry 65). -/
def Obligations.VpInitCompletes : Prop :=
  ∀ (s : State) (td : Nat) (t : Tdr) (c : Tdcs) (p : Tdvps), HostReady s →
    VcpuOperand s (s.hreg .rcx) td t c p → PageTakable s (s.hreg .rcx).toNat → s.plat.crInitOk = true →
    t.fatal = false → t.lifecycle = .keysConfigured → c.finalized = false →
    p.vcpuState = .uninitialized → p.numTdvpx = s.plat.tdvpsBaseSize / 4096 - 1 →
    s.lp.tscAdjust = s.sampledTscAdjust → c.numVcpus < c.maxVcpus →
    let q := p.initialised s t c c.numVcpus (s.hreg .rdx)
    exec .tdhVpInit s =
      .next (hostReturn
        ((s.modVp (s.hreg .rcx).toNat fun p => p.initialised s t c c.numVcpus (s.hreg .rdx)).modTdcs td fun c =>
          { c with numVcpus := c.numVcpus + 1, numAssocVcpus := c.numAssocVcpus + 1 })
        Status.success 0 []) ∧
    q.vcpuState = .readyAsync ∧ q.vcpuIndex = c.numVcpus ∧ q.assocLpid = some s.curLp ∧ q.lastExitTsc = s.tsc ∧
    q.gprs.rcx = s.hreg .rdx ∧ q.gprs.r8 = s.hreg .rdx ∧ q.gprs.rbx = w64 (if c.gpaw then 52 else 48) ∧
    q.gprs.rsi = w64 c.numVcpus ∧ q.xcr0 = 1 ∧ q.veInfo.valid = 0 ∧
    ((∀ e, s.plat.tdHkidEnc = some e → e ≠ Vmcs.rip ∧ e ≠ Vmcs.rflags ∧ e ≠ Vmcs.cr0) →
      q.vm Vmcs.rip = 0xFFFFFFF0 ∧ q.vm Vmcs.rflags = 2 ∧ q.vm Vmcs.cr0 = 0x21)

/-- TDH.VP.ENTER enters the guest: the VCPU is associated and active in the TD's epoch, the reference count of that
epoch's parity has grown, stale translations are flushed, the GPRs and XMM registers that TDG.VP.VMCALL asked for are
passed, and the shared locks on the TDVPR and TDR pages stay held, beside those of other running VCPUs. A build that
tests IS_SHARED_EPTP_VALID at entry (R165; log entry 25), here with the flag set; here for a VCPU to which the
entry delivers nothing (no pending debug exception, log entry 73; no task switch to attempt again, R636), whose guest state
the CPU accepts (only a debugger can make it bad, R642, log entry 40), and with a legal extended-state header (log entry 57). That a new association adds 1 to NUM_ASSOC_VCPUS and makes LAUNCHED FALSE before the
entry is R517's own [derived] sentence. That the flush comes when the epoch has
changed is R512's own [derived] sentence; that only a recorded zero-step list takes the Secure EPT lock is the spec's
decision D39. -/
def Obligations.VpEnterCompletes : Prop :=
  ∀ (s : State) (td : Nat) (t : Tdr) (c : Tdcs) (p : Tdvps), HostReady s →
    VcpuOperand s (s.hreg .rcx) td t c p → PageSharable s (s.hreg .rcx).toNat → Sharable s (.epoch td) →
    TdUsable t → c.finalized = true → (s.plat.entryNeedsSharedEptp = true → p.sharedEptpValid = true) →
    p.xbuffHeaderOk = true → EntersPlainly s (s.hreg .rcx).toNat p → p.numTdvpx = s.plat.tdvpsBaseSize / 4096 - 1 →
    bit s.lp.miscEnable 22 = false →
    s.lp.tscAdjust = s.sampledTscAdjust → p.lastExitTsc ≤ s.tsc → Associable s p →
    (p.lastEpfGpaListIdx = 0 ∨ Takable s (.sept td) ∧
      ∀ g ∈ p.lastEpfGpaList.take p.lastEpfGpaListIdx, epfMapped s c t.hkid g = true) →
    let v := (s.hreg .rcx).toNat
    let s1 := (s.modVp v fun q => q.associated s.plat s.curLp t.hkid).modTdcs td fun c =>
      if p.assocLpid = none then { c with numAssocVcpus := c.numAssocVcpus + 1 } else c
    let s2 := (s1.modVp v fun q => (q.enter c.tdEpoch s.lp).entering).modTdcs td fun c => c.ref c.tdEpoch
    exec .tdhVpEnter s =
      .next ({ s2 with locks := entryLocks s.locks v td }.modLp fun l =>
        { (if p.vcpuEpoch = c.tdEpoch then l else l.flushVcpu p) with curVcpu := some v, lastVcpu := some v })

/-- TDH.VP.FLUSH completes on a VCPU associated with this logical processor: the TD's translations are flushed here
and the VCPU is associated with no logical processor. -/
def Obligations.VpFlushCompletes : Prop :=
  ∀ (s : State) (td : Nat) (t : Tdr) (c : Tdcs) (p : Tdvps), HostReady s →
    VcpuOperand s (s.hreg .rcx) td t c p → PageTakable s (s.hreg .rcx).toNat → t.lifecycle = .keysConfigured →
    p.numTdvpx = s.plat.tdvpsBaseSize / 4096 - 1 → p.assocLpid = some s.curLp →
    exec .tdhVpFlush s =
      .next (hostReturn
        (((s.modLp fun l => { l with tlb := l.tlb.filter fun e => e.eptp != c.rootPage }).modVp (s.hreg .rcx).toNat
          fun p => { p with assocLpid := none }).modTdcs td fun c => { c with numAssocVcpus := c.numAssocVcpus - 1 })
        Status.success 0 [])

/-- TDH.VP.RD and TDH.VP.WR complete on an accessible field of a VCPU that may be associated with this logical
processor: they associate it, and R8 returns the readable bits of the field, before the write where one is made. That a new
association adds 1 to NUM_ASSOC_VCPUS and makes LAUNCHED FALSE is R517's own [derived] sentence. A disabled VCPU is
refused by both (R517, the spec's decision D37; log entry 87). -/
def Obligations.VpRdWrComplete : Prop :=
  ∀ (s : State) (td : Nat) (t : Tdr) (c : Tdcs) (p : Tdvps) (f : VFieldInfo), HostReady s →
    VcpuOperand s (s.hreg .rcx) td t c p → PageSharable s (s.hreg .rcx).toNat → TdUsable t →
    p.numTdvpx = s.plat.tdvpsBaseSize / 4096 - 1 →
    vcpuField s.plat c.xfam c.debug (s.hreg .rdx) = some f →
    let v := (s.hreg .rcx).toNat
    let q := p.associated s.plat s.curLp t.hkid
    let w := f.writeMask &&& s.hreg .r9
    let new := mergeMask (readVField q f.field) (s.hreg .r8) w
    let s1 := (s.modVp v fun q => q.associated s.plat s.curLp t.hkid).modTdcs td fun c =>
      if p.assocLpid = none then { c with numAssocVcpus := c.numAssocVcpus + 1 } else c
    (Associable s p → f.readMask ≠ 0 →
      exec .tdhVpRd s = .next (hostReturn s1 Status.success 0 [(.r8, readVField q f.field &&& f.readMask)])) ∧
    (Associable s p → w ≠ 0 → checkWrite s.plat c q new f.rule = .ok () →
      exec .tdhVpWr s =
        .next (hostReturn (s1.modVp v fun q => writeVField q f.field new) Status.success 0
          [(.r8, readVField q f.field &&& f.readMask)])) ∧
    (p.vcpuState = .disabled →
      (f.readMask ≠ 0 →
        exec .tdhVpRd s = .next (hostReturn s Status.vcpuStateIncorrect 0 [(.r8, 0)])) ∧
      (w ≠ 0 → exec .tdhVpWr s = .next (hostReturn s Status.vcpuStateIncorrect 0 [(.r8, 0)])))

/-! ## Guest-side functions: TDG.* -/

/-- TDG.VP.INFO and TDG.VP.CPUIDVE.SET on every path: the first cannot fail; the second sets both flags from RCX bits
1:0, or fails when a reserved bit is set. -/
def Obligations.VpInfoCpuidveRules : Prop :=
  ∀ (s : State) (v td : Nat) (t : Tdr) (c : Tdcs) (p : Tdvps), GuestCalls s v td t c p →
    let s1 := s.tdcallEntered v
    exec .tdgVpInfo s =
      .next (guestReturn s1 v Status.success 0
        [(.rcx, if c.gpaw then 52 else 48), (.rdx, c.attributes), (.r8, w64 (c.maxVcpus * 2 ^ 32 + c.numVcpus)),
         (.r9, w64 p.vcpuIndex), (.r10, 0), (.r11, 0)]) ∧
    (bitsOf p.gprs.rcx 63 2 = 0 →
      exec .tdgVpCpuidveSet s =
        .next (guestReturn (s1.modVp v fun q =>
          { q with cpuidSupervisorVe := bit p.gprs.rcx 0, cpuidUserVe := bit p.gprs.rcx 1 }) v Status.success 0 [])) ∧
    (bitsOf p.gprs.rcx 63 2 ≠ 0 →
      exec .tdgVpCpuidveSet s = .next (guestReturn s1 v Status.operandInvalid Operand.rcx []))

/-- TDG.VP.VEINFO.GET on every path: with VE_INFO.VALID not 0 it returns the five values of VE_INFO and clears VALID;
with VALID 0 it fails with TDX_NO_VALID_VE_INFO and the five registers are 0. -/
def Obligations.VpVeinfoGetRule : Prop :=
  ∀ (s : State) (v td : Nat) (t : Tdr) (c : Tdcs) (p : Tdvps), GuestCalls s v td t c p →
    let s1 := s.tdcallEntered v
    (p.veInfo.valid ≠ 0 →
      exec .tdgVpVeinfoGet s =
        .next (guestReturn (s1.modVp v fun q => { q with veInfo := { q.veInfo with valid := 0 } }) v Status.success 0
          [(.rcx, p.veInfo.exitReason), (.rdx, p.veInfo.exitQualification), (.r8, p.veInfo.gla),
           (.r9, p.veInfo.gpa),
           (.r10, (p.veInfo.instructionInformation <<< 32) ||| (p.veInfo.instructionLength &&& 0xFFFFFFFF))])) ∧
    (p.veInfo.valid = 0 →
      exec .tdgVpVeinfoGet s =
        .next (guestReturn s1 v Status.noValidVeInfo 0 [(.rcx, 0), (.rdx, 0), (.r8, 0), (.r9, 0), (.r10, 0)]))

/-- TDG.VM.RD and TDG.VM.WR complete for the guest's own TD (RCX 0) on a field it may access: R8 returns the element,
before the write where one is made. When another agent's write of the same field is the next scheduled call and that
agent wins the race, which is the environment's choice (log entry 70), TDG.VM.WR writes nothing, returns
TDX_OPERAND_BUSY for the TDCS, and the race is over. -/
def Obligations.VmRdWrComplete : Prop :=
  ∀ (s : State) (v td : Nat) (t : Tdr) (c : Tdcs) (p : Tdvps) (r : TdFieldRow) (i : Nat),
    GuestCalls s v td t c p → p.gprs.rcx = 0 → tdField s.plat p.gprs.rdx = some (r, i) →
    let loses := s.raceLost = true ∧ fieldContended (s.tdcallEntered v) td p.gprs.rdx = true
    (r.guest.reads = true → (r.field = .rtmr → lockState s.locks (.rtmr td) ≠ some .exclusive) →
      exec .tdgVmRd s =
        .next (guestReturn (s.tdcallEntered v) v Status.success 0 [(.r8, readTdField s t c i r.field)])) ∧
    (r.guest.writes = true → r.writeMask &&& p.gprs.r9 ≠ 0 → loses →
      exec .tdgVmWr s =
        .next (guestReturn { s.tdcallEntered v with raceLost := false } v Status.operandBusy Operand.tdcs
          [(.r8, 0)])) ∧
    (r.guest.writes = true → r.writeMask &&& p.gprs.r9 ≠ 0 → ¬ loses →
      exec .tdgVmWr s =
        .next (guestReturn
          ((s.tdcallEntered v).modTdcs td fun u => writeTdField u r.field
            (mergeMask (readTdField s t c i r.field) p.gprs.r8 (r.writeMask &&& p.gprs.r9)))
          v Status.success 0 [(.r8, readTdField s t c i r.field)]))

/-- TDG.MR.RTMR.EXTEND completes on a 64-byte aligned private operand that is mapped present: the chosen register
becomes the SHA-384 digest of its old value followed by the 48 bytes. -/
def Obligations.RtmrExtendCompletes : Prop :=
  ∀ (s : State) (v td : Nat) (t : Tdr) (c : Tdcs) (p : Tdvps) (a level : Nat), GuestCalls s v td t c p →
    isAligned p.gprs.rcx.toNat 64 = true → c.privateGpa p.gprs.rcx.toNat = true → p.gprs.rdx.toNat < 4 →
    Takable s (.rtmr td) → privateWalk s c t.hkid p.gprs.rcx.toNat = .ok a level →
    isPrivateHkid s.plat t.hkid = true →
    poisoned s t.hkid a 48 = false →
    exec .tdgMrRtmrExtend s =
      .next (guestReturn
        ((s.tdcallEntered v).modTdcs td fun c =>
          let digest := sha384 (padTo 48 (c.rtmr.getD p.gprs.rdx.toNat []) ++ readBytes s t.hkid a 48)
          { c with rtmr := c.rtmr.set p.gprs.rdx.toNat digest })
        v Status.success 0 [])

/-- TDG.MR.REPORT completes when both operands are aligned and translate, privately or through the Shared EPT: the
TDREPORT_STRUCT over the 64 bytes at RDX is written at RCX, each operand with the HKID and the memory type of its
translation. That memory must be behind a shared operand is R271's; where there is none is a parameter (log entry
72). -/
def Obligations.MrReportCompletes : Prop :=
  ∀ (s : State) (v td : Nat) (t : Tdr) (c : Tdcs) (p : Tdvps) (src dst : GuestOperand) (data : List Byte),
    GuestCalls s v td t c p →
    isAligned p.gprs.rcx.toNat 1024 = true → c.legalGpa p.gprs.rcx.toNat = true →
    isAligned p.gprs.rdx.toNat 64 = true → c.legalGpa p.gprs.rdx.toNat = true → p.gprs.r8 = 0 →
    Sharable s (.rtmr td) → guestGpa s t c p p.gprs.rdx.toNat .read = .ok src → guestRead s src 64 = .ok data →
    guestGpa s t c p p.gprs.rcx.toNat .write = .ok dst → guestBacked s.plat dst.hkid dst.hpa 1024 = true →
    exec .tdgMrReport s =
      .next (guestReturn (guestWrite (s.tdcallEntered v) dst (tdReport s.plat c data)) v Status.success 0 [])

/-- TDG.MEM.PAGE.ACCEPT completes on a pending 4KB or 2MB page: the page is zeroed under the TD's HKID and its entry
becomes present; here where the environment lets no other agent act in the middle of it and no interrupt stops it (log
entries 26 and 54). When another agent did act in the middle, and the entry is no longer the pending one that the walk
found, the last step is an EPT-violation TD exit: RAX 48, RCX 2, RDX the extended qualification of the entry, R8 the
GPA; the VCPU is no longer in the middle of the function and its RIP and registers are as before. The number 48 and the
layout of RCX are general knowledge, as R541 itself says; that RDX carries the entry's state is the spec's decision
D44, that RBP is the host's own the spec's decision D38 (log entry 49). A line of the entry that has been poisoned in the middle
is an unbreakable shutdown that disables TDX (R271). -/
def Obligations.PageAcceptCompletes : Prop :=
  (∀ (s : State) (v td : Nat) (t : Tdr) (c : Tdcs) (p : Tdvps) (level gpa : Nat) (e : SeptPos),
    GuestCalls s v td t c p → p.accept = none → s.lp.yieldAt = none → bitsOf p.gprs.rcx 11 3 = 0 →
    bitsOf p.gprs.rcx 63 52 = 0 → bitsOf p.gprs.rcx 2 0 = level → level ≤ 1 → bitsOf p.gprs.rcx 51 12 * 4096 = gpa →
    c.privateGpa gpa = true → isAligned gpa (2 ^ (12 + 9 * level)) = true →
    septWalk s c t.hkid gpa (some level) = .ok e → e.entry.state = .pending → e.entry.leaf = true →
    Takable s (.septEntry e.addr) → (level = 1 → s.lp.intrPending = none) →
    exec .tdgMemPageAccept s =
      .next (guestReturn
        ((zeroDirect (s.tdcallEntered v) t.hkid e.entry.hpa (2 ^ (12 + 9 * level))).setSept e.addr
          ⟨.present, true, e.entry.hpa⟩)
        v Status.success 0 [])) ∧
  (∀ (s : State) (v td : Nat) (t : Tdr) (c : Tdcs) (p : Tdvps) (r : AcceptRun),
    GuestCalls s v td t c p → p.accept = some r → r.done = 512 ^ r.reqLevel → s.lp.yieldAt = none →
    s.lp.intrPending = none → s.lp.apicModeOk = true → septAt s r.entry ≠ ⟨.pending, true, r.hpa⟩ →
    linePoison s t.hkid (r.entry / 64) = false →
    entryLocksHeld (release s.locks (.septEntry r.entry)) v td = true →
    ∃ u q, exec .tdgMemPageAccept s = .next u ∧ u.lp.curVcpu = none ∧ u.mem = s.mem ∧ u.sept = s.sept ∧
      u.lp.gprs =
        { Gprs.zero with
          rax := 48, rcx := 2, rdx := extQualAccept r.reqLevel r.entryLevel { septAt s r.entry with leaf := true },
          r8 := w64 r.gpa &&& ~~~0xFFF, rbp := s.lp.gprs.rbp } ∧
      u.locks = releaseEntryLocks (release s.locks (.septEntry r.entry)) v td ∧
      tblGet u.vps v = some q ∧ q.accept = none ∧ q.vcpuState = .readyAsync ∧ q.gprs = p.gprs ∧
      q.vm Vmcs.rip = p.vm Vmcs.rip) ∧
  (∀ (s : State) (v td : Nat) (t : Tdr) (c : Tdcs) (p : Tdvps) (r : AcceptRun),
    GuestCalls s v td t c p → p.accept = some r → r.done = 512 ^ r.reqLevel → s.lp.yieldAt = none →
    s.lp.intrPending = none → linePoison s t.hkid (r.entry / 64) = true →
    ∃ u, exec .tdgMemPageAccept s = .next u ∧ u.seamDisabled = true)

/-- TDG.VP.VMCALL completes as a TD exit: the host's TDH.VP.ENTER returns 77 in RAX and the guest's mask in RCX; each
other general register and each XMM register holds the guest's value if the mask selects it and 0 if not; every other
element of the extended state has its INIT value if the TD's or the VCPU's XFAM has its component and is the host's own
if not; the
locks of the entry are released, as they were held; the VCPU waits for the next TDH.VP.ENTER with RIP past TDCALL, and
the logical processor runs no guest. The 4 bytes of TDCALL are R710's; by how much the host's RIP moves is a parameter that
the model adds (log entry 10); the places of XMM0 to XMM15 in the XSAVE area are the family's (log entry 57). -/
def Obligations.VmcallReturnsToHost : Prop :=
  ∀ (s : State) (v td : Nat) (t : Tdr) (c : Tdcs) (p : Tdvps), GuestCalls s v td t c p →
    p.gprs.rcx &&& 0xFFFFFFFF00000013 = 0 → entryLocksHeld s.locks v td = true →
    ∃ u, exec .tdgVpVmcall s = .next u ∧ u.curLp = s.curLp ∧ u.lp.curVcpu = none ∧
      u.lp.gprs.rax = 77 ∧ u.lp.gprs.rcx = p.gprs.rcx ∧
      (∀ r, r ≠ .rax → r ≠ .rcx → u.lp.gprs.get r = if bit p.gprs.rcx r.id then p.gprs.get r else 0) ∧
      (∀ i h, i < 16 → h < 2 →
        regGet u.lp.ext (xmmKey i h) = if bit p.gprs.rcx (16 + i) then regGet p.xbuff (xmmUnit i h) else 0) ∧
      (∀ k, (∀ i h, i < 16 → h < 2 → k ≠ xmmKey i h) →
        regGet u.lp.ext k = if bit (p.xfam ||| c.xfam) (extComponent k) then 0 else regGet s.lp.ext k) ∧
      u.locks = releaseEntryLocks s.locks v td ∧
      u.lp.rip = s.lp.rip + w64 s.plat.seamcallLength ∧ u.lp.rsp = s.lp.rsp ∧ u.lp.rflags = s.lp.rflags ∧
      (∃ q, tblGet u.vps v = some q ∧ q.vcpuState = .readyTdvmcall ∧ q.lastExitTsc = s.tsc ∧ q.gprs = p.gprs ∧
        q.vm Vmcs.rip = p.vm Vmcs.rip + 4) ∧
      tblGet u.tdcss td = some (c.unref p.vcpuEpoch) ∧
      (∀ w, w ≠ v → tblGet u.vps w = tblGet s.vps w) ∧ u.mem = s.mem ∧ u.sept = s.sept

/-! ## The step and the encoding -/

/-- A step with no label scheduled, and a step whose label is a call, run the function that RAX selects for the side
that calls; an unsupported leaf number runs none. A VM exit that is due before the guest's next instruction would come first: the injection
of a pending NMI, or one that a debugger asked for. The schedule is the model's choice (log entry 9); that a pending NMI comes
first is the spec's decision D89 (log entry 39), the order with a debugger's exits is presumed (log entry 82). -/
def Obligations.StepRunsDecoded : Prop :=
  ∀ (s : State), s.boundaryFirst = none →
    (∀ i, s.schedule = [] → decode s.side s.callRax = .ok i → step s = exec i s.ticked) ∧
    (∀ e, s.schedule = [] → decode s.side s.callRax = .error e → step s = unsupportedCall s.ticked) ∧
    (∀ i rest, s.schedule = .call s.curLp :: rest → s.curLp < s.lps.length →
      decode s.side s.callRax = .ok i → step s = exec i { s.ticked with schedule := rest }) ∧
    (∀ i, decode s.side s.callRax = .ok i → i.wellFormed s.side = true)

/-- Decoding and encoding agree, in both directions and for every function of both sides: bytes decode to an
instruction, leaving a rest, exactly when the instruction is well formed for the side and the bytes are its encoding
followed by that rest. That an instruction is the eight bytes of RAX, least significant first, and its side is the
model's choice (log entry 1). -/
def Obligations.DecodeInvertsEncode : Prop :=
  ∀ (side : Side) (bytes : List Byte) (i : Instr) (rest : List Byte),
    decodeBytes side bytes = .ok (i, rest) ↔ i.wellFormed side = true ∧ bytes = encodeBytes i ++ rest

/-- A few values of RAX, as the leaf tables print them: TDH.VP.ENTER is SEAMCALL leaf 0, TDH.SYS.CONFIG 45,
TDG.VP.VMCALL TDCALL leaf 0, TDG.VM.WR 8; 34 and 46 are no SEAMCALL leaf, 9 is no TDCALL leaf, and the whole of RAX
counts. What no table lists is refused by the spec's decision D71 (log entry 49). -/
def Obligations.DecodesLeafNumbers : Prop :=
  decode .seamcall 0 = .ok .tdhVpEnter ∧ decode .seamcall 45 = .ok .tdhSysConfig ∧
  decode .tdcall 0 = .ok .tdgVpVmcall ∧ decode .tdcall 8 = .ok .tdgVmWr ∧
  decode .seamcall 34 = .error (.unsupportedLeaf .seamcall 34) ∧
  decode .seamcall 46 = .error (.unsupportedLeaf .seamcall 46) ∧
  decode .tdcall 9 = .error (.unsupportedLeaf .tdcall 9) ∧
  decode .seamcall 0x100000000 = .error (.unsupportedLeaf .seamcall 0x100000000)

/-! ## Reset and invariants -/

/-- What a module just loaded finds: SYSINIT_PENDING, TDX enabled, no logical processor initialised, blocked or
running a guest, no cached guest translation, no page assigned, no HKID in use, no TD, no VCPU, no lock held. That no
translation is cached is the model's choice (log entry 6); that the state is the one after module load is the spec's
decision D93. -/
def Obligations.ResetState : Prop :=
  State.reset.sysState = .sysinitPending ∧ State.reset.seamDisabled = false ∧
  (∀ l ∈ State.reset.lps, l.initDone = false ∧ l.seamcallBlocked = false ∧ l.shutdown = false ∧ l.curVcpu = none ∧
    l.tlb = []) ∧
  State.reset.pkgConfigBitmap = 0 ∧ State.reset.tdmrs = [] ∧ State.reset.locks = [] ∧ State.reset.sept = [] ∧
  State.reset.tdrs = [] ∧ State.reset.tdcss = [] ∧ State.reset.vps = [] ∧
  (∀ a level, (pamtAt State.reset a level).pt = .nda) ∧ (∀ h, (kotAt State.reset h).state = .free)

/-- The invariant of `StepKeepsInv` holds right after reset: memory is canonical, the logical processors are all there,
and no HKID is assigned to a TD. The canonical form is the model's (log entry 8). -/
def Obligations.ResetInv : Prop := Inv State.reset

/-- Every step, whatever it is (a function of either side, a guest operation, an event, a host operation, a choice of
the environment), keeps memory in its canonical form, the number of logical processors equal to the platform's, and
every HKID assigned to at most one TD; and it never turns the time-stamp counter back (the spec's decision D94). That no
two TDs hold one HKID is R53's second objective; the two clauses of `HkidsDistinct` that carry it are the model's, and
the canonical form is too (log entry 8). -/
def Obligations.StepKeepsInv : Prop := ∀ s t : State, Inv s → step s = .next t → Inv t ∧ s.tsc ≤ t.tsc

/-- Once TDX has been disabled on the platform nothing enables it again but a platform reset. The two environment
steps that reset or reload are the model's inference (log entry 42). -/
def Obligations.DisabledUntilPlatformReset : Prop :=
  ∀ s t : State, s.seamDisabled = true → step s = .next t →
    t.seamDisabled = true ∨ ∃ rest, s.schedule = .env .platformReset :: rest

/-! ## How calls are refused, and what a call leaves alone -/

/-- When a SEAMCALL does not reach its function: TDX disabled gives VMfailInvalid with CF 1 and no other change but
RIP; a logical processor that has been shut down gets the loader's value in RAX; a module being shut down answers
TDX_SYS_SHUTDOWN to every function but TDH.SYS.LP.SHUTDOWN; a module not yet ready answers TDX_SYS_NOT_READY to every
function but the six of initialisation, and no register other than RAX changes in either case (of the six, those that have
outputs return 0 in them at a shutdown); an unsupported leaf number is TDX_OPERAND_INVALID on RAX. And when a TDCALL does
not: outside 64-bit mode the guest takes #GP(0), vector 13 with error code 0, and keeps its RIP and its registers (here
for a guest whose debugger does not intercept the vector); an unsupported leaf number is TDX_OPERAND_INVALID on RAX. The
field `event` is the model's own (log entries 15 and 30). The blocked logical processor's RAX and the status of an
unsupported leaf are the spec's decisions D35 and D71; that VMfailInvalid leaves the other flags is the model's reading
(log entry 12), and how far the host's RIP moves is a parameter that the model adds (log entry 10). A TDH.MEM.WR that is in the middle of its
work is not meant: it goes on (R433 (b), log entry 91). -/
def Obligations.SeamcallRefusals : Prop :=
  (∀ (s : State) (i : Instr), i.side = .seamcall → s.curLp < s.lps.length → s.lp.shutdown = false →
    s.lp.curVcpu = none → (i = .tdhMemWr → s.lp.memWr = none) →
    let initFns : List Instr :=
      [.tdhSysInfo, .tdhSysInit, .tdhSysLpInit, .tdhSysConfig, .tdhSysKeyConfig, .tdhSysLpShutdown]
    (s.seamDisabled = true →
      exec i s = .next (s.modLp fun l =>
        { l with rflags := l.rflags ||| 1, rip := l.rip + w64 s.plat.seamcallLength })) ∧
    (s.seamDisabled = false → s.lp.seamcallBlocked = true →
      exec i s = .next (s.modLp fun l =>
        { l with gprs := { l.gprs with rax := s.plat.shutdownLpRax }, rip := l.rip + w64 s.plat.seamcallLength })) ∧
    (HostCalls s → s.sysState = .sysShutdown → i ≠ .tdhSysLpShutdown →
      exec i s =
        .next (hostReturn s Status.sysShutdown 0 (if i ∈ initFns then (hostOutputs i).map fun r => (r, 0) else []))) ∧
    (HostCalls s → s.sysState ≠ .sysReady → s.sysState ≠ .sysShutdown → i ∉ initFns →
      exec i s = .next (hostReturn s Status.sysNotReady 0 [])) ∧
    (HostCalls s → unsupportedSeamcall s = .next (hostReturn s Status.operandInvalid Operand.rax []))) ∧
  (∀ (s : State) (v td : Nat) (t : Tdr) (c : Tdcs) (p : Tdvps), RunsGuest s v td t c p →
    (∀ i : Instr, i.side = .tdcall → p.in64 = false → intercepted s v 13 = false →
      ∃ u q, exec i s = .next u ∧ u = { s with vps := u.vps } ∧ tblGet u.vps v = some q ∧
        (∀ w, w ≠ v → tblGet u.vps w = tblGet s.vps w) ∧ q.event = some (13, some 0) ∧ q.gprs = p.gprs ∧
        q.vm Vmcs.rip = p.vm Vmcs.rip) ∧
    (p.in64 = true →
      unsupportedTdcall s = .next (guestReturn (s.tdcallEntered v) v Status.operandInvalid Operand.rax [])))

/-- What a host-side function leaves of the logical processors when TDX stays enabled and no guest is entered: the
calling one has moved past SEAMCALL, and only RAX and the registers under the function's "Operands out" may have changed
among its registers; RFLAGS is as before, which is the spec's decision D75 (log entry 49); segment, descriptor-table,
control and debug registers are as before; of the other logical processors at most LP_INIT_DONE has changed. That a
TDH.VP.ENTER that fails is no exception, and changes RAX alone, is R326's own [derived] sentence; some components of the
extended state, of those in the XFAM of the TD that its operand names, may have been cleared, which ones being free (R512 and
log entry 50); one that succeeds
and leaves again at once, because the guest's debugger intercepts a pending debug exception (log entry 73) or has made the
guest state bad (R642), or a task switch is attempted again (R636), is not meant here, nor is a TDH.MEM.WR of which one step is not the whole (R433
(b)): `MemRdWrComplete` states both of its steps in full. -/
def Obligations.HostRegisterFrame : Prop :=
  ∀ (i : Instr) (s t : State), i.side = .seamcall → HostCalls s → exec i s = .next t → t.seamDisabled = false →
    t.lp.curVcpu = none →
    (i = .tdhVpEnter → ∀ p, tblGet s.vps (s.hreg .rcx).toNat = some p → EntersPlainly s (s.hreg .rcx).toNat p) →
    WritesAtOnce i s t →
    t.curLp = s.curLp ∧ t.lps.length = s.lps.length ∧ t.lp.rip = s.lp.rip + w64 s.plat.seamcallLength ∧
    (∀ r, r ≠ .rax → r ∉ hostOutputs i → t.lp.gprs.get r = s.lp.gprs.get r) ∧
    t.lp.rsp = s.lp.rsp ∧ t.lp.rflags = s.lp.rflags ∧ t.lp.cr0 = s.lp.cr0 ∧ t.lp.cr3 = s.lp.cr3 ∧
    t.lp.cr4 = s.lp.cr4 ∧ t.lp.cr8 = s.lp.cr8 ∧ t.lp.segs = s.lp.segs ∧ t.lp.gdtr = s.lp.gdtr ∧
    t.lp.idtr = s.lp.idtr ∧ t.lp.dr0 = s.lp.dr0 ∧
    t.lp.dr1 = s.lp.dr1 ∧ t.lp.dr2 = s.lp.dr2 ∧ t.lp.dr3 = s.lp.dr3 ∧ t.lp.dr6 = s.lp.dr6 ∧ t.lp.dr7 = s.lp.dr7 ∧
    t.lp.cr2 = s.lp.cr2 ∧ t.lp.xcr0 = s.lp.xcr0 ∧ t.lp.msrs = s.lp.msrs ∧ t.lp.miscEnable = s.lp.miscEnable ∧
    t.lp.tscAdjust = s.lp.tscAdjust ∧ t.lp.shutdown = s.lp.shutdown ∧ t.lp.apicModeOk = s.lp.apicModeOk ∧
    t.lp.intrPending = s.lp.intrPending ∧ t.lp.yieldAt = s.lp.yieldAt ∧ t.lp.memWr = s.lp.memWr ∧
    (i ≠ .tdhVpEnter → t.lp.ext = s.lp.ext) ∧ (i = .tdhVpEnter → ∃ m, m &&& ~~~entryXfam s = 0 ∧ t.lp.ext = extInit m s.lp.ext) ∧
    ∀ j, j ≠ s.curLp → t.lpAt j = { s.lpAt j with initDone := (t.lpAt j).initDone }

/-- A host-side function that returns an error (RAX bit 63 set) has changed nothing but RAX, the registers under
its "Operands out" and RIP: every other register, memory, every control structure, every lock is as
before. TDH.PHYMEM.CACHE.WB, which an interrupt may stop half-way, is the exception; a TDH.SYS.LP.INIT that fails a
platform check has already emptied the logical processor's cached translations; a TDH.VP.ENTER that fails may have
cleared components of the extended state, of those in the TD's XFAM, which ones being free (log entry 50), and one that succeeds and leaves again
at once, because the guest's debugger intercepts a pending debug exception (log entry 73) or has made the guest state bad
(R642), or a task switch is attempted again (R636), is not meant here, nor is a TDH.MEM.WR of which one step is not the whole
(R433 (b)). That RFLAGS is as before is the spec's decision D75, that a failing TDH.VP.ENTER changes RAX
alone R326's own [derived] sentence. -/
def Obligations.HostErrorChangesNothing : Prop :=
  ∀ (i : Instr) (s t : State), i.side = .seamcall → i ≠ .tdhPhymemCacheWb → HostCalls s → exec i s = .next t →
    t.seamDisabled = false → t.lp.curVcpu = none → bit t.lp.gprs.rax 63 = true →
    (i = .tdhVpEnter → ∀ p, tblGet s.vps (s.hreg .rcx).toNat = some p → EntersPlainly s (s.hreg .rcx).toNat p) →
    WritesAtOnce i s t →
    ∃ s1 value details outs, t = hostReturn s1 value details outs ∧
      (∀ e ∈ outs, e.1 ∈ hostOutputs i) ∧
      (s1 = s ∨ (i = .tdhSysLpInit ∧ s1 = s.modLp fun l => { l with tlb := [] }) ∨
        (i = .tdhVpEnter ∧ ∃ m, m &&& ~~~entryXfam s = 0 ∧ s1 = s.modLp fun l => { l with ext := extInit m l.ext }))

/-- The host-side functions that store no byte: memory is as before, and so is every byte that is read under any HKID
but, for the two key-configuration functions, the HKID whose key they configure. For the functions that free a page of
the module's own, memory is as before but for the record of the lines that may still be modified in the caches (the
field `stale`, the model's, log entry 56), and every byte reads as before. The frame is read from each function's
rule. -/
def Obligations.HostMemoryUntouched : Prop :=
  ∀ (i : Instr) (s t : State), HostCalls s → exec i s = .next t →
    (i ∈ [.tdhVpEnter, .tdhMemPageAug, .tdhMemRangeBlock, .tdhMngRd, .tdhMemRd, .tdhMngWr, .tdhMrExtend,
        .tdhMrFinalize, .tdhVpFlush, .tdhMngVpflushdone, .tdhMngKeyFreeid, .tdhMngInit, .tdhVpInit,
        .tdhPhymemPageRdmd, .tdhMemSeptRd, .tdhVpRd, .tdhMngKeyReclaimid, .tdhSysInit, .tdhSysLpInit, .tdhMemTrack,
        .tdhMemRangeUnblock, .tdhVpWr, .tdhSysLpShutdown, .tdhSysConfig] →
      t.mem = s.mem ∧ ∀ hkid a, readByte t hkid a = readByte s hkid a) ∧
    (i ∈ [.tdhMemPagePromote, .tdhPhymemPageReclaim, .tdhMemPageRemove, .tdhMemSeptRemove] →
      t.mem = { s.mem with stale := t.mem.stale } ∧ ∀ hkid a, readByte t hkid a = readByte s hkid a) ∧
    (i = .tdhMngKeyConfig → t.mem = s.mem ∧
      ∀ r, tblGet s.tdrs (s.hreg .rcx).toNat = some r →
        ∀ hkid a, hkid ≠ r.hkid → readByte t hkid a = readByte s hkid a) ∧
    (i = .tdhSysKeyConfig → t.mem = s.mem ∧
      ∀ hkid a, hkid ≠ s.globalHkid → readByte t hkid a = readByte s hkid a)

/-- The page that a host-side function initialises or copies to: the operand in RCX or in R8. -/
def Obligations.HostPageStoresStayInside : Prop :=
  ∀ (i : Instr) (s t : State), HostCalls s → s.mem.wf = true → exec i s = .next t →
    (i ∈ [.tdhMngCreate, .tdhMngAddcx, .tdhVpCreate, .tdhVpAddcx] →
      ∀ hkid a, hkid < 65536 → ¬ ((s.hreg .rcx).toNat ≤ a ∧ a < (s.hreg .rcx).toNat + 4096) →
        readByte t hkid a = readByte s hkid a) ∧
    (i ∈ [.tdhMemSeptAdd, .tdhMemPageAdd, .tdhMemPageDemote, .tdhMemPageRelocate] →
      ∀ hkid a, hkid < 65536 → ¬ ((s.hreg .r8).toNat ≤ a ∧ a < (s.hreg .r8).toNat + 4096) →
        readByte t hkid a = readByte s hkid a)

/-- What a guest-side function that completes or fails leaves alone: the logical processors, the other VCPUs, the
platform's tables, the key tables and the page metadata; memory, but for TDG.MR.REPORT and TDG.MEM.PAGE.ACCEPT; and
the locks, but for the Secure EPT entry locks that a TDG.MEM.PAGE.ACCEPT holds while other agents act.
That the structures of a VCPU other than this one stay is the model's frame, read from each function's rule. -/
def Obligations.GuestFunctionFrame : Prop :=
  ∀ (i : Instr) (s t : State) (v td : Nat) (r : Tdr) (c : Tdcs) (p : Tdvps), i.side = .tdcall →
    GuestCalls s v td r c p → exec i s = .next t → t.lp.curVcpu = some v → t.seamDisabled = false →
    t.lps = s.lps ∧ t.curLp = s.curLp ∧ t.sysState = s.sysState ∧ t.kot = s.kot ∧ t.ket = s.ket ∧ t.wbt = s.wbt ∧
    t.tdmrs = s.tdmrs ∧ t.pamt4k = s.pamt4k ∧ t.pamt2m = s.pamt2m ∧ t.pamt1g = s.pamt1g ∧ t.tdrs = s.tdrs ∧
    (∀ id, (∀ a, id ≠ .septEntry a) → lockState t.locks id = lockState s.locks id) ∧
    (∀ w, w ≠ v → tblGet t.vps w = tblGet s.vps w) ∧
    (i ≠ .tdgMemPageAccept → t.sept = s.sept ∧ t.locks = s.locks) ∧
    (i ∉ [.tdgMrReport, .tdgMemPageAccept] → t.mem = s.mem ∧ ∀ hkid a, readByte t hkid a = readByte s hkid a) ∧
    (i ∉ [.tdgVmWr, .tdgMrRtmrExtend] → t.tdcss = s.tdcss)

/-! ## Exceptions and TD exits -/

/-- InjectVE: with VE_INFO.VALID 0 the guest takes #VE (vector 20, no error code) and VE_INFO holds the exit record
with VALID 0xFFFFFFFF; with VALID not 0 it takes #DF (vector 8, error code 0) and VE_INFO is left as it was. Either
way RIP is that of the causing instruction, the VM-entry interruption information names the event, and nothing outside
the VCPU changes. Here for a guest whose debugger does not intercept the vector. And an EPT violation of a guest load
(R712), translated without a cached translation: where the deciding entry's Suppress-#VE bit is 0 and VALID is 0, the CPU
itself raises #VE and fills the architectural part of VE_INFO; where the bit is 1, or VALID is not 0, the violation is a
TD exit with RAX 48, the qualification in RCX and the page of the GPA in R8 (on a private GPA, while the zero-step count
is not beyond its threshold). That VALID not 0 makes a TD exit and no #DF is the spec's decision D84, that RBP is the
host's own its decision D38 (log entry 49). The numbers in the VM-entry fields, and the error code of #DF, are presumed, as the rule itself says (log
entry 46); the field `event` is the model's own (log entries 15 and 30); qualification bits 12:7 are free (log entry
33). -/
def Obligations.VeInjection : Prop :=
  (∀ (s : State) (v : Nat) (p : Tdvps) (x : VmExit), s.seamDisabled = false → tblGet s.vps v = some p →
    structuresReadable s v = true → intercepted s v 20 = false → intercepted s v 8 = false →
    ∃ q, tblGet (guestVe s v x).vps v = some q ∧ guestVe s v x = { s with vps := (guestVe s v x).vps } ∧
      (∀ w, w ≠ v → tblGet (guestVe s v x).vps w = tblGet s.vps w) ∧
      q.vm Vmcs.rip = p.vm Vmcs.rip ∧ q.gprs = p.gprs ∧
      (p.veInfo.valid = 0 →
        q.event = some (20, none) ∧ q.vm Vmcs.entryIntrInfo = 0x80000314 ∧
        q.veInfo =
          { exitReason := x.reason &&& 0xFFFF, valid := 0xFFFFFFFF, exitQualification := x.qualification,
            gla := x.gla, gpa := x.gpa, eptpIndex := 0, instructionLength := x.instrLength &&& 0xFFFFFFFF,
            instructionInformation := x.instrInfo &&& 0xFFFFFFFF }) ∧
      (p.veInfo.valid ≠ 0 →
        q.event = some (8, some 0) ∧ q.vm Vmcs.entryIntrInfo = 0x80000B08 ∧ q.vm Vmcs.entryErrorCode = 0 ∧
        q.veInfo = p.veInfo)) ∧
  (∀ (s : State) (v td : Nat) (t : Tdr) (c : Tdcs) (p : Tdvps) (r : Reg) (gla gpa n length : Nat) (suppress priv : Bool)
      (perms : Word),
    GuestActs s v td t c p → c.legalGpa gpa = true →
    translate s t c p gpa .read false = .violation suppress priv perms →
    let load : GuestOp := .mem [⟨.read r, [⟨gla, gpa, n⟩]⟩] [] length false false false
    let qual : Word := (1 ||| (perms <<< 3)) &&& ~~~0x1F80
    (suppress = false → p.veInfo.valid = 0 → p.excExits 20 none = false →
      ∃ u q, guestStep s load = .next u ∧ u = { s with vps := u.vps } ∧ tblGet u.vps v = some q ∧
        (∀ w, w ≠ v → tblGet u.vps w = tblGet s.vps w) ∧ q.event = some (20, none) ∧ q.gprs = p.gprs ∧
        q.vm Vmcs.rip = p.vm Vmcs.rip ∧ q.veInfo.exitQualification &&& ~~~0x1F80 = qual ∧
        q.veInfo =
          { p.veInfo with
            exitReason := 48, valid := 0xFFFFFFFF, exitQualification := q.veInfo.exitQualification, gla := w64 gla,
            gpa := w64 gpa, eptpIndex := 0 }) ∧
    (suppress = true ∨ p.veInfo.valid ≠ 0 → s.lp.apicModeOk = true → entryLocksHeld s.locks v td = true →
      (priv = true → p.possiblyEpfStepping + 1 ≤ s.plat.epfThreshold) →
      ∃ u q, guestStep s load = .next u ∧ u.lp.curVcpu = none ∧ u.mem = s.mem ∧
        u.lp.gprs =
          { Gprs.zero with rax := 48, rcx := qual, r8 := w64 gpa &&& ~~~0xFFF, rbp := s.lp.gprs.rbp } ∧
        u.locks = releaseEntryLocks s.locks v td ∧ tblGet u.vps v = some q ∧ q.vcpuState = .readyAsync ∧
        q.gprs = p.gprs ∧ q.vm Vmcs.rip = p.vm Vmcs.rip))

/-- Every instruction of the list of the rule (the VMX instructions, ENCLS, ENCLV, RSM, GETSEC, SEAMCALL, SEAMRET)
gives the guest #UD, at any CPL and in any mode: vector 6 without error code, RIP and the general registers as before,
nothing outside the VCPU changed; and SEAMCALL does so through the instruction itself, whatever its leaf number. Here
for a guest whose debugger does not intercept the vector, and with no VM exit due first (a pending NMI, or a debugger's). The
field `event` is the model's own (log entries 15 and 30); that a pending NMI comes first is the spec's decision D89 (log entry
39), the order with a debugger's exits is presumed (log entry 82). -/
def Obligations.UnconditionalUndefinedOpcodes : Prop :=
  (∀ (s : State) (v td : Nat) (t : Tdr) (c : Tdcs) (p : Tdvps) (i : UdInstr) (x : InstrInfo),
    GuestActs s v td t c p → bit (p.vm Vmcs.exceptionBitmap) 6 = false →
    ∃ u q, guestStep s (.ud i x) = .next u ∧ tblGet u.vps v = some q ∧ u = { s with vps := u.vps } ∧
      (∀ w, w ≠ v → tblGet u.vps w = tblGet s.vps w) ∧ q.event = some (6, none) ∧
      q.vm Vmcs.rip = p.vm Vmcs.rip ∧ q.gprs = p.gprs ∧ q.veInfo = p.veInfo) ∧
  (∀ (i : Instr) (s : State) (v : Nat) (p : Tdvps), i.side = .seamcall → s.curLp < s.lps.length →
    s.lp.shutdown = false → s.lp.curVcpu = some v → s.seamDisabled = false → tblGet s.vps v = some p →
    structuresReadable s v = true → intercepted s v 6 = false →
    ∃ u q, exec i s = .next u ∧ u = { s with vps := u.vps } ∧ tblGet u.vps v = some q ∧ q.event = some (6, none) ∧
      q.gprs = p.gprs ∧ q.vm Vmcs.rip = p.vm Vmcs.rip)

/-- An external interrupt that is not a posted-interrupt notification ends the guest's run, where no exit that a debugger asked
for comes before it (log entry 82): the host sees RAX 1, the
vector in R9, RBP unmodified and every other general register 0, the extended state of the components of the TD's and
the VCPU's XFAM at its INIT values, the locks of the entry released; the VCPU is VCPU_READY_ASYNC with its exit time recorded, and
the reference count of its epoch's parity has fallen. The exit reason and the layout of R9, and the
values of CR2 and DR7, are presumed, as the rules themselves say (log entries 46 and 52); RBP is the spec's decision
D38. -/
def Obligations.ExternalInterruptExits : Prop :=
  ∀ (s : State) (v td : Nat) (t : Tdr) (c : Tdcs) (p : Tdvps) (n : Nat), RunsGuest s v td t c p → p.accept = none →
    p.mtfPending = false → p.intrWindowOpen = false → s.lp.apicModeOk = true → entryLocksHeld s.locks v td = true → n < 256 → p.isNotification n = false →
    ∃ u q, eventStep s (.externalInterrupt n) = .next u ∧ u.lp.curVcpu = none ∧
      u.lp.gprs = { Gprs.zero with rax := 1, r9 := w64 (0x80000000 + n), rbp := s.lp.gprs.rbp } ∧
      u.lp.rip = s.lp.rip + w64 s.plat.seamcallLength ∧ u.lp.cr2 = 0 ∧ u.lp.dr7 = 0x400 ∧
      u.lp.xcr0 = c.xfam &&& 0x2FF ∧ u.lp.ext = extInit (p.xfam ||| c.xfam) s.lp.ext ∧ u.locks = releaseEntryLocks s.locks v td ∧
      tblGet u.vps v = some q ∧ q.vcpuState = .readyAsync ∧ q.lastExitTsc = s.tsc ∧
      q.gprs = p.gprs ∧ q.vm Vmcs.rip = p.vm Vmcs.rip ∧ q.vm Vmcs.exitReason = 1 ∧
      tblGet u.tdcss td = some (c.unref p.vcpuEpoch) ∧ u.tdrs = s.tdrs ∧ u.mem = s.mem

/-! ## Memory -/

/-- Read after write. A cacheable write is read back under its own HKID, byte for byte, and changes no other byte and
no other HKID's view; a direct write of whole lines is read back under its own HKID whatever the lines held before;
an uncacheable write is read back where the line is not cached, a device write always, and neither changes another byte
under its HKID; a shared HKID reads a line that a private HKID wrote last, and that is not cached, as zeros. A store and
a load of the host, a device write, and a store and a load of a guest through its translation are such accesses; the
host's and a device's to an address with a private HKID are refused. The memory of lines, tags and cache entries is the
spec's decisions D67 and D68 (log entries 8 and 19); the memory types of shared memory are parameters (log entry 72);
that the module's refusal stands for the CPU's answer to the host is the spec's decision D61. -/
def Obligations.MemoryReadAfterWrite : Prop :=
  (∀ (s : State) (hkid a : Nat) (bytes : List Byte), hkid < 65536 → s.mem.wf = true →
    (∀ x h, h < 65536 →
      readByte (writeCached s hkid a bytes) h x =
        if h = hkid ∧ a ≤ x ∧ x < a + bytes.length then bytes.getD (x - a) 0 else readByte s h x) ∧
    (a % 64 = 0 → bytes.length % 64 = 0 → ∀ x, a ≤ x → x < a + bytes.length →
      readByte (writeDirect s hkid a bytes) hkid x = bytes.getD (x - a) 0) ∧
    (∀ x, tblGet s.mem.cache (cacheKey (x / 64) hkid) = none →
      readByte (writeUncached s hkid a bytes) hkid x =
        if a ≤ x ∧ x < a + bytes.length then bytes.getD (x - a) 0 else readByte s hkid x) ∧
    (∀ x, readByte (writeDma s hkid a bytes) hkid x =
        if a ≤ x ∧ x < a + bytes.length then bytes.getD (x - a) 0 else readByte s hkid x) ∧
    (∀ x, isPrivateHkid s.plat hkid = false → (tagAt s.mem (x / 64)).td = true →
      tblGet s.mem.cache (cacheKey (x / 64) hkid) = none → readByte s hkid x = 0)) ∧
  (∀ (s : State) (pa : Nat) (bytes : List Byte), s.curLp < s.lps.length → s.lp.shutdown = false →
    s.lp.curVcpu = none → s.lp.memWr = none →
    let ok := hostAddressOk s.plat pa bytes.length
    (ok = true → hostStep s (.memWrite pa bytes) = .next (writeShared s pa bytes)) ∧
    (ok = true → envStep s (.dmaWrite pa bytes) = .next (writeDma s (hkidOf s.plat pa) (addrOf s.plat pa) bytes)) ∧
    (sharedUc s pa bytes.length = false →
      writeShared s pa bytes = writeCached s (hkidOf s.plat pa) (addrOf s.plat pa) bytes) ∧
    (ok = false → hostStep s (.memWrite pa bytes) = .refused .notTheHosts ∧
      envStep s (.dmaWrite pa bytes) = .refused .notEnabled) ∧
    (∀ r, hostAddressOk s.plat pa 8 = true → sharedUc s pa 8 = false →
      ∃ u, hostStep s (.memRead r pa) = .next u ∧ u.mem = s.mem ∧
        u.lp.gprs = s.lp.gprs.set r (read64 s (hkidOf s.plat pa) (addrOf s.plat pa)))) ∧
  (∀ (s : State) (v td : Nat) (t : Tdr) (c : Tdcs) (p : Tdvps) (r : Reg) (gla gpa n length hpa hkid : Nat) (uc : Bool)
      (fill : Option (Nat × Bool × Word)),
    GuestActs s v td t c p → c.legalGpa gpa = true → effectiveUc s.plat uc hkid hpa n = false →
    (translate s t c p gpa .write false = .ok hpa hkid uc fill →
      ∃ u q, guestStep s (.mem [⟨.write r, [⟨gla, gpa, n⟩]⟩] [] length false false false) = .next u ∧
        u.mem = (writeCached s hkid hpa (leBytes n (p.gprs.get r).toNat)).mem ∧ tblGet u.vps v = some q ∧
        q.gprs = p.gprs ∧ q.vm Vmcs.rip = p.vm Vmcs.rip + w64 length) ∧
    (translate s t c p gpa .read false = .ok hpa hkid uc fill → poisoned s hkid hpa n = false →
      ∃ u q, guestStep s (.mem [⟨.read r, [⟨gla, gpa, n⟩]⟩] [] length false false false) = .next u ∧
        u.mem = s.mem ∧ tblGet u.vps v = some q ∧
        q.gprs = p.gprs.set r (w64 (leValue (readBytes s hkid hpa n))) ∧
        q.vm Vmcs.rip = p.vm Vmcs.rip + w64 length))

/-! ## What the guest sees -/

/-- The CPUID leaves whose values the module fixes, for every guest of a TD that TDH.MNG.INIT made from any parameters:
leaves 0x3, 0x8, 0xE, 0x11, 0x12, 0x13 and 0x20 read 0, leaf 0x15 gives the virtual TSC frequency, and leaf 0x21
names the interface. That the sub-leaf of the first seven is ignored is R670's own [derived] sentence, from the printed
leaves without sub-leaves. The other sub-leaves of leaf 0x21 return zeros (R575), or have no value and give #VE (R690), by a
parameter that the model adds because the spec says both (log entry 71). And what the guest sees (R600): CPUID of a leaf that has a value, while the unconditional #VE of
TDG.VP.CPUIDVE.SET is off for its CPL, puts the value into EAX to EDX with the upper halves 0, and completes: no other
register but RIP, no MSR, no VE_INFO and nothing outside the VCPU has changed; CPUID of a leaf that has none gives #VE with
exit reason 10. That CPUID is 2 bytes long and that the CPL is
the DPL of SS are general knowledge and log entry 34; the field `event` is the model's own (log entries 15 and 30). -/
def Obligations.CpuidFixedLeaves : Prop :=
  ∀ (s : State) (q : TdParams) (root : Nat) (c : Tdcs) (v : Tdvps),
    c.cpuidValues = (Tdcs.created s q root).cpuidValues →
    (∀ leaf ∈ [0x3, 0x8, 0xE, 0x11, 0x12, 0x13, 0x20], ∀ sub, cpuidVirtual s.plat v c leaf sub = some ⟨0, 0, 0, 0⟩) ∧
    cpuidVirtual s.plat v c 0x15 0 = some ⟨1, BitVec.ofNat 32 q.tscFrequency, 0x017D7840, 0⟩ ∧
    cpuidVirtual s.plat v c 0x21 0 = some ⟨0, 0x65746E49, 0x20202020, 0x5844546C⟩ ∧
    (∀ sub, sub ≠ 0 →
      cpuidVirtual s.plat v c 0x21 sub = if s.plat.cpuid21OthersZero then some ⟨0, 0, 0, 0⟩ else none) ∧
    ∀ (g : State) (a td : Nat) (t : Tdr), GuestActs g a td t c v → v.cpuidVe = false →
      (cpuidVirtual g.plat v c (lo32 v.gprs.rax).toNat (lo32 v.gprs.rcx).toNat = none →
        guestStep g .cpuid = .next (guestVe g a (instrExit 10 2))) ∧
      ∀ r, cpuidVirtual g.plat v c (lo32 v.gprs.rax).toNat (lo32 v.gprs.rcx).toNat = some r →
      ∃ u w, guestStep g .cpuid = .next u ∧ tblGet u.vps a = some w ∧ u = { g with vps := u.vps } ∧
        w.gprs = { v.gprs with
          rax := r.eax.setWidth 64, rbx := r.ebx.setWidth 64, rcx := r.ecx.setWidth 64, rdx := r.edx.setWidth 64 } ∧
        w.vm Vmcs.rip = v.vm Vmcs.rip + 2 ∧ w.msrs = v.msrs ∧ w.xcr0 = v.xcr0 ∧ w.xbuff = v.xbuff ∧
        w.veInfo = v.veInfo ∧ w.event = none

/-- What a guest can enable stays inside XFAM, at CPL 0. XSETBV of XCR0 with a bit that XFAM does not allow gives #GP(0)
and leaves XCR0 as it was; whenever XCR0 changes, the new value lies inside XFAM, has bit 0 set, and nothing outside the
VCPU has changed. WRMSR of IA32_XSS writes a value inside XFAM and the supervisor components and gives #GP(0) to any
other. RDMSR and WRMSR of the MSRs of PT, ULI, LBR and CET, over all the ranges of R661, give #GP(0) without their XFAM bit
(CET: without both), where the TD's bitmaps make them exit as R662 says. MOV to CR4 that sets PKE, CET or ULI without the XFAM bits gives #GP(0), and MOV to CR4 or CR0 of
a value that passes its checks is emulated: the guest CR4 field of the VMCS then holds the value with bit 13 set, which
is R606's own [derived] sentence, and the guest CR0 field the value with its old bit 4. Bit 4 of CR0, when such a MOV
makes a VM exit (guest/host mask and read shadow) and the CPL as the DPL of SS are presumed (log entry 34); the places of
CR0's bits and its illegal combinations are general knowledge, as R605 itself says; so are the bit-0 rule of XCR0 and the
CPL and index tests, as R592 says; #UD without CR4.OSXSAVE is the model's (log entry 60). The field `event` is the
model's own (log entries 15 and 30). -/
def Obligations.ExtendedStateStaysInsideXfam : Prop :=
  ∀ (s : State) (v td : Nat) (t : Tdr) (c : Tdcs) (p : Tdvps), GuestActs s v td t c p → intercepted s v 13 = false →
    p.cpl = 0 →
    let gp (op : GuestOp) : Prop :=
      ∃ u q, guestStep s op = .next u ∧ tblGet u.vps v = some q ∧ u = { s with vps := u.vps } ∧
        q.event = some (13, some 0) ∧ q.xcr0 = p.xcr0 ∧ q.msrs = p.msrs ∧ q.gprs = p.gprs ∧
        q.vm Vmcs.cr0 = p.vm Vmcs.cr0 ∧ q.vm Vmcs.cr4 = p.vm Vmcs.cr4 ∧ q.vm Vmcs.rip = p.vm Vmcs.rip
    let idx := (lo32 p.gprs.rcx).toNat
    (bit (p.vm Vmcs.cr4) 18 = true →
      (lo32 p.gprs.rcx = 0 → p.gprs.pair &&& ~~~p.xfam ≠ 0 → gp .xsetbv) ∧
      (∀ u q, guestStep s .xsetbv = .next u → tblGet u.vps v = some q → q.xcr0 ≠ p.xcr0 →
        q.xcr0 &&& ~~~p.xfam = 0 ∧ bit q.xcr0 0 = true ∧ u = { s with vps := u.vps })) ∧
    (idx = 0xDA0 → msrExits c 1 0xDA0 = true →
      (p.gprs.pair &&& ~~~(p.xfam &&& 0x1FD00) ≠ 0 → gp .wrmsr) ∧
      (p.gprs.pair &&& ~~~(p.xfam &&& 0x1FD00) = 0 →
        ∃ u q, guestStep s .wrmsr = .next u ∧ tblGet u.vps v = some q ∧ u = { s with vps := u.vps } ∧
          q.msrs = regSet p.msrs 0xDA0 p.gprs.pair ∧ q.event = none ∧ q.vm Vmcs.rip = p.vm Vmcs.rip + 2)) ∧
    (∀ r ∈ [(0x560, 0x561, 8), (0x570, 0x572, 8), (0x580, 0x587, 8), (0x985, 0x98A, 14), (0x1200, 0x12FF, 15),
        (0x14CE, 0x14CF, 15), (0x1500, 0x15FF, 15), (0x1600, 0x16FF, 15)],
      r.1 ≤ idx → idx ≤ r.2.1 → bit c.xfam r.2.2 = false →
      (msrExits c 0 idx = true → gp .rdmsr) ∧ (msrExits c 1 idx = true → gp .wrmsr)) ∧
    (idx ∈ [0x6A0, 0x6A2, 0x6A4, 0x6A5, 0x6A6, 0x6A7, 0x6A8] → (bit c.xfam 11 || bit c.xfam 12) = false →
      (msrExits c 0 idx = true → gp .rdmsr) ∧ (msrExits c 1 idx = true → gp .wrmsr)) ∧
    (∀ x i, crExits (p.vm Vmcs.cr4Mask) (p.vm Vmcs.cr4Shadow) x = true →
      ((bit x 22 = true ∧ bit p.xfam 9 = false) ∨ (bit x 23 = true ∧ (bit p.xfam 11 && bit p.xfam 12) = false) ∨
          (bit x 25 = true ∧ bit p.xfam 14 = false) → gp (.movToCr4 x i)) ∧
      (cr4Verdict s.plat c p x = .ok →
        ∃ u q, guestStep s (.movToCr4 x i) = .next u ∧ tblGet u.vps v = some q ∧
          q.vm Vmcs.cr4 = x ||| 0x2000 ∧ q.event = none)) ∧
    (∀ x i, crExits (p.vm Vmcs.cr0Mask) (p.vm Vmcs.cr0Shadow) x = true →
      (cr0Verdict p x = .gp → gp (.movToCr0 x i)) ∧
      (cr0Verdict p x = .ok →
        ∃ u q, guestStep s (.movToCr0 x i) = .next u ∧ tblGet u.vps v = some q ∧
          q.vm Vmcs.cr0 = mergeMask x (p.vm Vmcs.cr0) 0x10 ∧ q.event = none))
end

