-- ==== Sys2Proof/Laws/Dispatch.lean ====
section
/-! SUPPORT. Every function of the interface is the common entry of its side around a body of its own (30_encoding.md
rules R321 and R328): the body of each function by name, and the two theorems that say so once for all. -/

namespace Sys2Proof.Machine

/-- Is a host-side function allowed before the module is ready: the functions of module initialisation (R321). -/
def sysLeaf : Instr → Bool
  | .tdhVpEnter => false
  | .tdhMngAddcx => false
  | .tdhMemPageAdd => false
  | .tdhMemSeptAdd => false
  | .tdhVpAddcx => false
  | .tdhMemPageRelocate => false
  | .tdhMemPageAug => false
  | .tdhMemRangeBlock => false
  | .tdhMngKeyConfig => false
  | .tdhMngCreate => false
  | .tdhVpCreate => false
  | .tdhMngRd => false
  | .tdhMemRd => false
  | .tdhMngWr => false
  | .tdhMemWr => false
  | .tdhMemPageDemote => false
  | .tdhMrExtend => false
  | .tdhMrFinalize => false
  | .tdhVpFlush => false
  | .tdhMngVpflushdone => false
  | .tdhMngKeyFreeid => false
  | .tdhMngInit => false
  | .tdhVpInit => false
  | .tdhMemPagePromote => false
  | .tdhPhymemPageRdmd => false
  | .tdhMemSeptRd => false
  | .tdhVpRd => false
  | .tdhMngKeyReclaimid => false
  | .tdhPhymemPageReclaim => false
  | .tdhMemPageRemove => false
  | .tdhMemSeptRemove => false
  | .tdhSysKeyConfig => true
  | .tdhSysInfo => true
  | .tdhSysInit => true
  | .tdhSysLpInit => true
  | .tdhSysTdmrInit => false
  | .tdhMemTrack => false
  | .tdhMemRangeUnblock => false
  | .tdhPhymemCacheWb => false
  | .tdhPhymemPageWbinvd => false
  | .tdhVpWr => false
  | .tdhSysLpShutdown => true
  | .tdhSysConfig => true
  | .tdgVpVmcall => false
  | .tdgVpInfo => false
  | .tdgMrRtmrExtend => false
  | .tdgVpVeinfoGet => false
  | .tdgMrReport => false
  | .tdgVpCpuidveSet => false
  | .tdgMemPageAccept => false
  | .tdgVmRd => false
  | .tdgVmWr => false

/-- The body of a host-side function. -/
def hostBody : Instr → State → Fn State
  | .tdhVpEnter => fun s => entryAnswer s (vpEnter s)
  | .tdhMngAddcx => mngAddcx
  | .tdhMemPageAdd => fun s => withOuts memOuts (memPageAdd s)
  | .tdhMemSeptAdd => fun s => withOuts memOuts (memSeptAdd s)
  | .tdhVpAddcx => vpAddcx
  | .tdhMemPageRelocate => fun s => withOuts memOuts (memPageRelocate s)
  | .tdhMemPageAug => fun s => withOuts memOuts (memPageAug s)
  | .tdhMemRangeBlock => fun s => withOuts memOuts (memRangeBlock s)
  | .tdhMngKeyConfig => mngKeyConfig
  | .tdhMngCreate => mngCreate
  | .tdhVpCreate => vpCreate
  | .tdhMngRd => fun s => withOuts [(.r8, 0)] (mngRd s)
  | .tdhMemRd => fun s => withOuts chunkOuts (memRd s)
  | .tdhMngWr => fun s => withOuts [(.r8, 0)] (mngWr s)
  | .tdhMemWr => fun s => withOuts chunkOuts (memWr s)
  | .tdhMemPageDemote => fun s => withOuts memOuts (memPageDemote s)
  | .tdhMrExtend => fun s => withOuts memOuts (mrExtend s)
  | .tdhMrFinalize => mrFinalize
  | .tdhVpFlush => vpFlush
  | .tdhMngVpflushdone => mngVpflushdone
  | .tdhMngKeyFreeid => mngKeyFreeid
  | .tdhMngInit => fun s => withOuts [(.rcx, 0)] (mngInit s)
  | .tdhVpInit => vpInit
  | .tdhMemPagePromote => fun s => withOuts memOuts (memPagePromote s)
  | .tdhPhymemPageRdmd => fun s => withOuts pageOuts (phymemPageRdmd s)
  | .tdhMemSeptRd => fun s => withOuts memOuts (memSeptRd s)
  | .tdhVpRd => fun s => withOuts [(.r8, 0)] (vpRd s)
  | .tdhMngKeyReclaimid => mngKeyReclaimid
  | .tdhPhymemPageReclaim => fun s => withOuts pageOuts (phymemPageReclaim s)
  | .tdhMemPageRemove => fun s => withOuts memOuts (memPageRemove s)
  | .tdhMemSeptRemove => fun s => withOuts memOuts (memSeptRemove s)
  | .tdhSysKeyConfig => sysKeyConfig
  | .tdhSysInfo => fun s => withOuts [(.rdx, 0), (.r9, 0)] (sysInfo s)
  | .tdhSysInit => fun s => withOuts sysInitOuts (sysInit s)
  | .tdhSysLpInit => fun s => withOuts lpInitOuts (sysLpInit s)
  | .tdhSysTdmrInit => fun s => withOuts [(.rdx, 0)] (sysTdmrInit s)
  | .tdhMemTrack => memTrack
  | .tdhMemRangeUnblock => fun s => withOuts memOuts (memRangeUnblock s)
  | .tdhPhymemCacheWb => phymemCacheWb
  | .tdhPhymemPageWbinvd => phymemPageWbinvd
  | .tdhVpWr => fun s => withOuts [(.r8, 0)] (vpWr s)
  | .tdhSysLpShutdown => sysLpShutdown
  | .tdhSysConfig => sysConfig
  | .tdgVpVmcall => fun s => .ok s
  | .tdgVpInfo => fun s => .ok s
  | .tdgMrRtmrExtend => fun s => .ok s
  | .tdgVpVeinfoGet => fun s => .ok s
  | .tdgMrReport => fun s => .ok s
  | .tdgVpCpuidveSet => fun s => .ok s
  | .tdgMemPageAccept => fun s => .ok s
  | .tdgVmRd => fun s => .ok s
  | .tdgVmWr => fun s => .ok s

/-- The body of a guest-side function. -/
def guestBody : Instr → State → Nat → GFn State
  | .tdgVpVmcall => vpVmcall
  | .tdgVpInfo => vpInfo
  | .tdgMrRtmrExtend => mrRtmrExtend
  | .tdgVpVeinfoGet => vpVeinfoGet
  | .tdgMrReport => mrReport
  | .tdgVpCpuidveSet => vpCpuidveSet
  | .tdgMemPageAccept => memPageAccept
  | .tdgVmRd => fun s v => gWithOuts [(.r8, 0)] (vmRd s v)
  | .tdgVmWr => fun s v => gWithOuts [(.r8, 0)] (vmWr s v)
  | .tdhVpEnter => fun s _ => .ok s
  | .tdhMngAddcx => fun s _ => .ok s
  | .tdhMemPageAdd => fun s _ => .ok s
  | .tdhMemSeptAdd => fun s _ => .ok s
  | .tdhVpAddcx => fun s _ => .ok s
  | .tdhMemPageRelocate => fun s _ => .ok s
  | .tdhMemPageAug => fun s _ => .ok s
  | .tdhMemRangeBlock => fun s _ => .ok s
  | .tdhMngKeyConfig => fun s _ => .ok s
  | .tdhMngCreate => fun s _ => .ok s
  | .tdhVpCreate => fun s _ => .ok s
  | .tdhMngRd => fun s _ => .ok s
  | .tdhMemRd => fun s _ => .ok s
  | .tdhMngWr => fun s _ => .ok s
  | .tdhMemWr => fun s _ => .ok s
  | .tdhMemPageDemote => fun s _ => .ok s
  | .tdhMrExtend => fun s _ => .ok s
  | .tdhMrFinalize => fun s _ => .ok s
  | .tdhVpFlush => fun s _ => .ok s
  | .tdhMngVpflushdone => fun s _ => .ok s
  | .tdhMngKeyFreeid => fun s _ => .ok s
  | .tdhMngInit => fun s _ => .ok s
  | .tdhVpInit => fun s _ => .ok s
  | .tdhMemPagePromote => fun s _ => .ok s
  | .tdhPhymemPageRdmd => fun s _ => .ok s
  | .tdhMemSeptRd => fun s _ => .ok s
  | .tdhVpRd => fun s _ => .ok s
  | .tdhMngKeyReclaimid => fun s _ => .ok s
  | .tdhPhymemPageReclaim => fun s _ => .ok s
  | .tdhMemPageRemove => fun s _ => .ok s
  | .tdhMemSeptRemove => fun s _ => .ok s
  | .tdhSysKeyConfig => fun s _ => .ok s
  | .tdhSysInfo => fun s _ => .ok s
  | .tdhSysInit => fun s _ => .ok s
  | .tdhSysLpInit => fun s _ => .ok s
  | .tdhSysTdmrInit => fun s _ => .ok s
  | .tdhMemTrack => fun s _ => .ok s
  | .tdhMemRangeUnblock => fun s _ => .ok s
  | .tdhPhymemCacheWb => fun s _ => .ok s
  | .tdhPhymemPageWbinvd => fun s _ => .ok s
  | .tdhVpWr => fun s _ => .ok s
  | .tdhSysLpShutdown => fun s _ => .ok s
  | .tdhSysConfig => fun s _ => .ok s

/-- SEAMCALL is `hostCall` around the function's body, but for a TDH.MEM.WR that goes on from between its steps 8 and 9. -/
theorem exec_host (i : Instr) (h : i.side = .seamcall) (s : State) (hw : i = .tdhMemWr → s.lp.memWr = none) :
    exec i s = hostCall (sysLeaf i) (hostBody i) s := by
  cases i <;> first | rfl | simp only [exec, execTdhMemWr, hw rfl, sysLeaf, hostBody] | cases h

/-- The rest of a TDH.MEM.WR (R433 (b)). -/
theorem exec_memWr_resumes {s : State} {r : MemWrRun} (h1 : s.curLp < s.lps.length) (h2 : s.lp.shutdown = false)
    (h : s.lp.memWr = some r) : exec .tdhMemWr s = .next (memWrResume s r) := by
  simp [exec, execTdhMemWr, h, lpStop, Nat.not_le.2 h1, h2]

/-- TDCALL is `guestCall` around the function's body. -/
theorem exec_guest (i : Instr) (h : i.side = .tdcall) (s : State) : exec i s = guestCall (guestBody i) s := by
  cases i <;> first | rfl | cases h

end Sys2Proof.Machine
end

