-- ==== Sys2Proof/Laws/State.lean ====
section
/-! SUPPORT. What each update of the state leaves alone: one lemma per field per update, so that no later proof unfolds
a record update. -/

namespace Sys2Proof.Machine

variable (s : State)

/-! ### The writes that go line by line -/

theorem storeLines_frame (h : Nat) (ls : List (Nat × List Byte)) : ∃ m, storeLines s h ls = { s with mem := m } := by
  induction ls generalizing s with
  | nil => exact ⟨s.mem, rfl⟩
  | cons e ls ih =>
    obtain ⟨m, hm⟩ := ih (writeBack s s.pkg h e.1 e.2)
    exact ⟨m, hm⟩

theorem writeUncached_frame (h a : Nat) (bs : List Byte) : ∃ m, writeUncached s h a bs = { s with mem := m } :=
  storeLines_frame s h _

theorem writeDma_frame (h a : Nat) (bs : List Byte) : ∃ m, writeDma s h a bs = { s with mem := m } := by
  obtain ⟨m, hm⟩ := storeLines_frame s h ((linesOf a bs.length).map fun l => (l, mergedLine s h l a bs))
  exact ⟨_, by unfold writeDma; rw [hm]⟩

/-! ### State.modLpAt -/

@[simp] theorem State.modLpAt_plat (i : Nat) (f : Lp → Lp) : (s.modLpAt i f).plat = s.plat := rfl
@[simp] theorem State.modLpAt_curLp (i : Nat) (f : Lp → Lp) : (s.modLpAt i f).curLp = s.curLp := rfl
@[simp] theorem State.modLpAt_schedule (i : Nat) (f : Lp → Lp) : (s.modLpAt i f).schedule = s.schedule := rfl
@[simp] theorem State.modLpAt_sysState (i : Nat) (f : Lp → Lp) : (s.modLpAt i f).sysState = s.sysState := rfl
@[simp] theorem State.modLpAt_seamDisabled (i : Nat) (f : Lp → Lp) : (s.modLpAt i f).seamDisabled = s.seamDisabled := rfl
@[simp] theorem State.modLpAt_pkgConfigBitmap (i : Nat) (f : Lp → Lp) : (s.modLpAt i f).pkgConfigBitmap = s.pkgConfigBitmap := rfl
@[simp] theorem State.modLpAt_sampledTscAdjust (i : Nat) (f : Lp → Lp) : (s.modLpAt i f).sampledTscAdjust = s.sampledTscAdjust := rfl
@[simp] theorem State.modLpAt_globalHkid (i : Nat) (f : Lp → Lp) : (s.modLpAt i f).globalHkid = s.globalHkid := rfl
@[simp] theorem State.modLpAt_tdmrs (i : Nat) (f : Lp → Lp) : (s.modLpAt i f).tdmrs = s.tdmrs := rfl
@[simp] theorem State.modLpAt_kot (i : Nat) (f : Lp → Lp) : (s.modLpAt i f).kot = s.kot := rfl
@[simp] theorem State.modLpAt_wbt (i : Nat) (f : Lp → Lp) : (s.modLpAt i f).wbt = s.wbt := rfl
@[simp] theorem State.modLpAt_ket (i : Nat) (f : Lp → Lp) : (s.modLpAt i f).ket = s.ket := rfl
@[simp] theorem State.modLpAt_pamt4k (i : Nat) (f : Lp → Lp) : (s.modLpAt i f).pamt4k = s.pamt4k := rfl
@[simp] theorem State.modLpAt_pamt2m (i : Nat) (f : Lp → Lp) : (s.modLpAt i f).pamt2m = s.pamt2m := rfl
@[simp] theorem State.modLpAt_pamt1g (i : Nat) (f : Lp → Lp) : (s.modLpAt i f).pamt1g = s.pamt1g := rfl
@[simp] theorem State.modLpAt_sept (i : Nat) (f : Lp → Lp) : (s.modLpAt i f).sept = s.sept := rfl
@[simp] theorem State.modLpAt_tdrs (i : Nat) (f : Lp → Lp) : (s.modLpAt i f).tdrs = s.tdrs := rfl
@[simp] theorem State.modLpAt_tdcss (i : Nat) (f : Lp → Lp) : (s.modLpAt i f).tdcss = s.tdcss := rfl
@[simp] theorem State.modLpAt_vps (i : Nat) (f : Lp → Lp) : (s.modLpAt i f).vps = s.vps := rfl
@[simp] theorem State.modLpAt_locks (i : Nat) (f : Lp → Lp) : (s.modLpAt i f).locks = s.locks := rfl
@[simp] theorem State.modLpAt_envLocks (i : Nat) (f : Lp → Lp) : (s.modLpAt i f).envLocks = s.envLocks := rfl
@[simp] theorem State.modLpAt_mem (i : Nat) (f : Lp → Lp) : (s.modLpAt i f).mem = s.mem := rfl
@[simp] theorem State.modLpAt_tsc (i : Nat) (f : Lp → Lp) : (s.modLpAt i f).tsc = s.tsc := rfl
@[simp] theorem State.modLpAt_entropyOk (i : Nat) (f : Lp → Lp) : (s.modLpAt i f).entropyOk = s.entropyOk := rfl
@[simp] theorem State.modLpAt_nextKey (i : Nat) (f : Lp → Lp) : (s.modLpAt i f).nextKey = s.nextKey := rfl
@[simp] theorem State.modLpAt_raceLost (i : Nat) (f : Lp → Lp) : (s.modLpAt i f).raceLost = s.raceLost := rfl
@[simp] theorem State.modLpAt_tick (i : Nat) (f : Lp → Lp) : (s.modLpAt i f).tick = s.tick := rfl

/-! ### State.modLp -/

@[simp] theorem State.modLp_plat (f : Lp → Lp) : (s.modLp f).plat = s.plat := rfl
@[simp] theorem State.modLp_curLp (f : Lp → Lp) : (s.modLp f).curLp = s.curLp := rfl
@[simp] theorem State.modLp_schedule (f : Lp → Lp) : (s.modLp f).schedule = s.schedule := rfl
@[simp] theorem State.modLp_sysState (f : Lp → Lp) : (s.modLp f).sysState = s.sysState := rfl
@[simp] theorem State.modLp_seamDisabled (f : Lp → Lp) : (s.modLp f).seamDisabled = s.seamDisabled := rfl
@[simp] theorem State.modLp_pkgConfigBitmap (f : Lp → Lp) : (s.modLp f).pkgConfigBitmap = s.pkgConfigBitmap := rfl
@[simp] theorem State.modLp_sampledTscAdjust (f : Lp → Lp) : (s.modLp f).sampledTscAdjust = s.sampledTscAdjust := rfl
@[simp] theorem State.modLp_globalHkid (f : Lp → Lp) : (s.modLp f).globalHkid = s.globalHkid := rfl
@[simp] theorem State.modLp_tdmrs (f : Lp → Lp) : (s.modLp f).tdmrs = s.tdmrs := rfl
@[simp] theorem State.modLp_kot (f : Lp → Lp) : (s.modLp f).kot = s.kot := rfl
@[simp] theorem State.modLp_wbt (f : Lp → Lp) : (s.modLp f).wbt = s.wbt := rfl
@[simp] theorem State.modLp_ket (f : Lp → Lp) : (s.modLp f).ket = s.ket := rfl
@[simp] theorem State.modLp_pamt4k (f : Lp → Lp) : (s.modLp f).pamt4k = s.pamt4k := rfl
@[simp] theorem State.modLp_pamt2m (f : Lp → Lp) : (s.modLp f).pamt2m = s.pamt2m := rfl
@[simp] theorem State.modLp_pamt1g (f : Lp → Lp) : (s.modLp f).pamt1g = s.pamt1g := rfl
@[simp] theorem State.modLp_sept (f : Lp → Lp) : (s.modLp f).sept = s.sept := rfl
@[simp] theorem State.modLp_tdrs (f : Lp → Lp) : (s.modLp f).tdrs = s.tdrs := rfl
@[simp] theorem State.modLp_tdcss (f : Lp → Lp) : (s.modLp f).tdcss = s.tdcss := rfl
@[simp] theorem State.modLp_vps (f : Lp → Lp) : (s.modLp f).vps = s.vps := rfl
@[simp] theorem State.modLp_locks (f : Lp → Lp) : (s.modLp f).locks = s.locks := rfl
@[simp] theorem State.modLp_envLocks (f : Lp → Lp) : (s.modLp f).envLocks = s.envLocks := rfl
@[simp] theorem State.modLp_mem (f : Lp → Lp) : (s.modLp f).mem = s.mem := rfl
@[simp] theorem State.modLp_tsc (f : Lp → Lp) : (s.modLp f).tsc = s.tsc := rfl
@[simp] theorem State.modLp_entropyOk (f : Lp → Lp) : (s.modLp f).entropyOk = s.entropyOk := rfl
@[simp] theorem State.modLp_nextKey (f : Lp → Lp) : (s.modLp f).nextKey = s.nextKey := rfl
@[simp] theorem State.modLp_raceLost (f : Lp → Lp) : (s.modLp f).raceLost = s.raceLost := rfl
@[simp] theorem State.modLp_tick (f : Lp → Lp) : (s.modLp f).tick = s.tick := rfl

/-! ### State.modTdr -/

@[simp] theorem State.modTdr_plat (a : Nat) (f : Tdr → Tdr) : (s.modTdr a f).plat = s.plat := rfl
@[simp] theorem State.modTdr_curLp (a : Nat) (f : Tdr → Tdr) : (s.modTdr a f).curLp = s.curLp := rfl
@[simp] theorem State.modTdr_schedule (a : Nat) (f : Tdr → Tdr) : (s.modTdr a f).schedule = s.schedule := rfl
@[simp] theorem State.modTdr_lps (a : Nat) (f : Tdr → Tdr) : (s.modTdr a f).lps = s.lps := rfl
@[simp] theorem State.modTdr_sysState (a : Nat) (f : Tdr → Tdr) : (s.modTdr a f).sysState = s.sysState := rfl
@[simp] theorem State.modTdr_seamDisabled (a : Nat) (f : Tdr → Tdr) : (s.modTdr a f).seamDisabled = s.seamDisabled := rfl
@[simp] theorem State.modTdr_pkgConfigBitmap (a : Nat) (f : Tdr → Tdr) : (s.modTdr a f).pkgConfigBitmap = s.pkgConfigBitmap := rfl
@[simp] theorem State.modTdr_sampledTscAdjust (a : Nat) (f : Tdr → Tdr) : (s.modTdr a f).sampledTscAdjust = s.sampledTscAdjust := rfl
@[simp] theorem State.modTdr_globalHkid (a : Nat) (f : Tdr → Tdr) : (s.modTdr a f).globalHkid = s.globalHkid := rfl
@[simp] theorem State.modTdr_tdmrs (a : Nat) (f : Tdr → Tdr) : (s.modTdr a f).tdmrs = s.tdmrs := rfl
@[simp] theorem State.modTdr_kot (a : Nat) (f : Tdr → Tdr) : (s.modTdr a f).kot = s.kot := rfl
@[simp] theorem State.modTdr_wbt (a : Nat) (f : Tdr → Tdr) : (s.modTdr a f).wbt = s.wbt := rfl
@[simp] theorem State.modTdr_ket (a : Nat) (f : Tdr → Tdr) : (s.modTdr a f).ket = s.ket := rfl
@[simp] theorem State.modTdr_pamt4k (a : Nat) (f : Tdr → Tdr) : (s.modTdr a f).pamt4k = s.pamt4k := rfl
@[simp] theorem State.modTdr_pamt2m (a : Nat) (f : Tdr → Tdr) : (s.modTdr a f).pamt2m = s.pamt2m := rfl
@[simp] theorem State.modTdr_pamt1g (a : Nat) (f : Tdr → Tdr) : (s.modTdr a f).pamt1g = s.pamt1g := rfl
@[simp] theorem State.modTdr_sept (a : Nat) (f : Tdr → Tdr) : (s.modTdr a f).sept = s.sept := rfl
@[simp] theorem State.modTdr_tdcss (a : Nat) (f : Tdr → Tdr) : (s.modTdr a f).tdcss = s.tdcss := rfl
@[simp] theorem State.modTdr_vps (a : Nat) (f : Tdr → Tdr) : (s.modTdr a f).vps = s.vps := rfl
@[simp] theorem State.modTdr_locks (a : Nat) (f : Tdr → Tdr) : (s.modTdr a f).locks = s.locks := rfl
@[simp] theorem State.modTdr_envLocks (a : Nat) (f : Tdr → Tdr) : (s.modTdr a f).envLocks = s.envLocks := rfl
@[simp] theorem State.modTdr_mem (a : Nat) (f : Tdr → Tdr) : (s.modTdr a f).mem = s.mem := rfl
@[simp] theorem State.modTdr_tsc (a : Nat) (f : Tdr → Tdr) : (s.modTdr a f).tsc = s.tsc := rfl
@[simp] theorem State.modTdr_entropyOk (a : Nat) (f : Tdr → Tdr) : (s.modTdr a f).entropyOk = s.entropyOk := rfl
@[simp] theorem State.modTdr_nextKey (a : Nat) (f : Tdr → Tdr) : (s.modTdr a f).nextKey = s.nextKey := rfl
@[simp] theorem State.modTdr_raceLost (a : Nat) (f : Tdr → Tdr) : (s.modTdr a f).raceLost = s.raceLost := rfl
@[simp] theorem State.modTdr_tick (a : Nat) (f : Tdr → Tdr) : (s.modTdr a f).tick = s.tick := rfl

/-! ### State.modTdcs -/

@[simp] theorem State.modTdcs_plat (a : Nat) (f : Tdcs → Tdcs) : (s.modTdcs a f).plat = s.plat := rfl
@[simp] theorem State.modTdcs_curLp (a : Nat) (f : Tdcs → Tdcs) : (s.modTdcs a f).curLp = s.curLp := rfl
@[simp] theorem State.modTdcs_schedule (a : Nat) (f : Tdcs → Tdcs) : (s.modTdcs a f).schedule = s.schedule := rfl
@[simp] theorem State.modTdcs_lps (a : Nat) (f : Tdcs → Tdcs) : (s.modTdcs a f).lps = s.lps := rfl
@[simp] theorem State.modTdcs_sysState (a : Nat) (f : Tdcs → Tdcs) : (s.modTdcs a f).sysState = s.sysState := rfl
@[simp] theorem State.modTdcs_seamDisabled (a : Nat) (f : Tdcs → Tdcs) : (s.modTdcs a f).seamDisabled = s.seamDisabled := rfl
@[simp] theorem State.modTdcs_pkgConfigBitmap (a : Nat) (f : Tdcs → Tdcs) : (s.modTdcs a f).pkgConfigBitmap = s.pkgConfigBitmap := rfl
@[simp] theorem State.modTdcs_sampledTscAdjust (a : Nat) (f : Tdcs → Tdcs) : (s.modTdcs a f).sampledTscAdjust = s.sampledTscAdjust := rfl
@[simp] theorem State.modTdcs_globalHkid (a : Nat) (f : Tdcs → Tdcs) : (s.modTdcs a f).globalHkid = s.globalHkid := rfl
@[simp] theorem State.modTdcs_tdmrs (a : Nat) (f : Tdcs → Tdcs) : (s.modTdcs a f).tdmrs = s.tdmrs := rfl
@[simp] theorem State.modTdcs_kot (a : Nat) (f : Tdcs → Tdcs) : (s.modTdcs a f).kot = s.kot := rfl
@[simp] theorem State.modTdcs_wbt (a : Nat) (f : Tdcs → Tdcs) : (s.modTdcs a f).wbt = s.wbt := rfl
@[simp] theorem State.modTdcs_ket (a : Nat) (f : Tdcs → Tdcs) : (s.modTdcs a f).ket = s.ket := rfl
@[simp] theorem State.modTdcs_pamt4k (a : Nat) (f : Tdcs → Tdcs) : (s.modTdcs a f).pamt4k = s.pamt4k := rfl
@[simp] theorem State.modTdcs_pamt2m (a : Nat) (f : Tdcs → Tdcs) : (s.modTdcs a f).pamt2m = s.pamt2m := rfl
@[simp] theorem State.modTdcs_pamt1g (a : Nat) (f : Tdcs → Tdcs) : (s.modTdcs a f).pamt1g = s.pamt1g := rfl
@[simp] theorem State.modTdcs_sept (a : Nat) (f : Tdcs → Tdcs) : (s.modTdcs a f).sept = s.sept := rfl
@[simp] theorem State.modTdcs_tdrs (a : Nat) (f : Tdcs → Tdcs) : (s.modTdcs a f).tdrs = s.tdrs := rfl
@[simp] theorem State.modTdcs_vps (a : Nat) (f : Tdcs → Tdcs) : (s.modTdcs a f).vps = s.vps := rfl
@[simp] theorem State.modTdcs_locks (a : Nat) (f : Tdcs → Tdcs) : (s.modTdcs a f).locks = s.locks := rfl
@[simp] theorem State.modTdcs_envLocks (a : Nat) (f : Tdcs → Tdcs) : (s.modTdcs a f).envLocks = s.envLocks := rfl
@[simp] theorem State.modTdcs_mem (a : Nat) (f : Tdcs → Tdcs) : (s.modTdcs a f).mem = s.mem := rfl
@[simp] theorem State.modTdcs_tsc (a : Nat) (f : Tdcs → Tdcs) : (s.modTdcs a f).tsc = s.tsc := rfl
@[simp] theorem State.modTdcs_entropyOk (a : Nat) (f : Tdcs → Tdcs) : (s.modTdcs a f).entropyOk = s.entropyOk := rfl
@[simp] theorem State.modTdcs_nextKey (a : Nat) (f : Tdcs → Tdcs) : (s.modTdcs a f).nextKey = s.nextKey := rfl
@[simp] theorem State.modTdcs_raceLost (a : Nat) (f : Tdcs → Tdcs) : (s.modTdcs a f).raceLost = s.raceLost := rfl
@[simp] theorem State.modTdcs_tick (a : Nat) (f : Tdcs → Tdcs) : (s.modTdcs a f).tick = s.tick := rfl

/-! ### State.modVp -/

@[simp] theorem State.modVp_plat (a : Nat) (f : Tdvps → Tdvps) : (s.modVp a f).plat = s.plat := rfl
@[simp] theorem State.modVp_curLp (a : Nat) (f : Tdvps → Tdvps) : (s.modVp a f).curLp = s.curLp := rfl
@[simp] theorem State.modVp_schedule (a : Nat) (f : Tdvps → Tdvps) : (s.modVp a f).schedule = s.schedule := rfl
@[simp] theorem State.modVp_lps (a : Nat) (f : Tdvps → Tdvps) : (s.modVp a f).lps = s.lps := rfl
@[simp] theorem State.modVp_sysState (a : Nat) (f : Tdvps → Tdvps) : (s.modVp a f).sysState = s.sysState := rfl
@[simp] theorem State.modVp_seamDisabled (a : Nat) (f : Tdvps → Tdvps) : (s.modVp a f).seamDisabled = s.seamDisabled := rfl
@[simp] theorem State.modVp_pkgConfigBitmap (a : Nat) (f : Tdvps → Tdvps) : (s.modVp a f).pkgConfigBitmap = s.pkgConfigBitmap := rfl
@[simp] theorem State.modVp_sampledTscAdjust (a : Nat) (f : Tdvps → Tdvps) : (s.modVp a f).sampledTscAdjust = s.sampledTscAdjust := rfl
@[simp] theorem State.modVp_globalHkid (a : Nat) (f : Tdvps → Tdvps) : (s.modVp a f).globalHkid = s.globalHkid := rfl
@[simp] theorem State.modVp_tdmrs (a : Nat) (f : Tdvps → Tdvps) : (s.modVp a f).tdmrs = s.tdmrs := rfl
@[simp] theorem State.modVp_kot (a : Nat) (f : Tdvps → Tdvps) : (s.modVp a f).kot = s.kot := rfl
@[simp] theorem State.modVp_wbt (a : Nat) (f : Tdvps → Tdvps) : (s.modVp a f).wbt = s.wbt := rfl
@[simp] theorem State.modVp_ket (a : Nat) (f : Tdvps → Tdvps) : (s.modVp a f).ket = s.ket := rfl
@[simp] theorem State.modVp_pamt4k (a : Nat) (f : Tdvps → Tdvps) : (s.modVp a f).pamt4k = s.pamt4k := rfl
@[simp] theorem State.modVp_pamt2m (a : Nat) (f : Tdvps → Tdvps) : (s.modVp a f).pamt2m = s.pamt2m := rfl
@[simp] theorem State.modVp_pamt1g (a : Nat) (f : Tdvps → Tdvps) : (s.modVp a f).pamt1g = s.pamt1g := rfl
@[simp] theorem State.modVp_sept (a : Nat) (f : Tdvps → Tdvps) : (s.modVp a f).sept = s.sept := rfl
@[simp] theorem State.modVp_tdrs (a : Nat) (f : Tdvps → Tdvps) : (s.modVp a f).tdrs = s.tdrs := rfl
@[simp] theorem State.modVp_tdcss (a : Nat) (f : Tdvps → Tdvps) : (s.modVp a f).tdcss = s.tdcss := rfl
@[simp] theorem State.modVp_locks (a : Nat) (f : Tdvps → Tdvps) : (s.modVp a f).locks = s.locks := rfl
@[simp] theorem State.modVp_envLocks (a : Nat) (f : Tdvps → Tdvps) : (s.modVp a f).envLocks = s.envLocks := rfl
@[simp] theorem State.modVp_mem (a : Nat) (f : Tdvps → Tdvps) : (s.modVp a f).mem = s.mem := rfl
@[simp] theorem State.modVp_tsc (a : Nat) (f : Tdvps → Tdvps) : (s.modVp a f).tsc = s.tsc := rfl
@[simp] theorem State.modVp_entropyOk (a : Nat) (f : Tdvps → Tdvps) : (s.modVp a f).entropyOk = s.entropyOk := rfl
@[simp] theorem State.modVp_nextKey (a : Nat) (f : Tdvps → Tdvps) : (s.modVp a f).nextKey = s.nextKey := rfl
@[simp] theorem State.modVp_raceLost (a : Nat) (f : Tdvps → Tdvps) : (s.modVp a f).raceLost = s.raceLost := rfl
@[simp] theorem State.modVp_tick (a : Nat) (f : Tdvps → Tdvps) : (s.modVp a f).tick = s.tick := rfl

/-! ### State.setPamt -/

@[simp] theorem State.setPamt_plat (a l : Nat) (e : PamtEntry) : (s.setPamt a l e).plat = s.plat := by unfold State.setPamt; split <;> rfl
@[simp] theorem State.setPamt_curLp (a l : Nat) (e : PamtEntry) : (s.setPamt a l e).curLp = s.curLp := by unfold State.setPamt; split <;> rfl
@[simp] theorem State.setPamt_schedule (a l : Nat) (e : PamtEntry) : (s.setPamt a l e).schedule = s.schedule := by unfold State.setPamt; split <;> rfl
@[simp] theorem State.setPamt_lps (a l : Nat) (e : PamtEntry) : (s.setPamt a l e).lps = s.lps := by unfold State.setPamt; split <;> rfl
@[simp] theorem State.setPamt_sysState (a l : Nat) (e : PamtEntry) : (s.setPamt a l e).sysState = s.sysState := by unfold State.setPamt; split <;> rfl
@[simp] theorem State.setPamt_seamDisabled (a l : Nat) (e : PamtEntry) : (s.setPamt a l e).seamDisabled = s.seamDisabled := by unfold State.setPamt; split <;> rfl
@[simp] theorem State.setPamt_pkgConfigBitmap (a l : Nat) (e : PamtEntry) : (s.setPamt a l e).pkgConfigBitmap = s.pkgConfigBitmap := by unfold State.setPamt; split <;> rfl
@[simp] theorem State.setPamt_sampledTscAdjust (a l : Nat) (e : PamtEntry) : (s.setPamt a l e).sampledTscAdjust = s.sampledTscAdjust := by unfold State.setPamt; split <;> rfl
@[simp] theorem State.setPamt_globalHkid (a l : Nat) (e : PamtEntry) : (s.setPamt a l e).globalHkid = s.globalHkid := by unfold State.setPamt; split <;> rfl
@[simp] theorem State.setPamt_tdmrs (a l : Nat) (e : PamtEntry) : (s.setPamt a l e).tdmrs = s.tdmrs := by unfold State.setPamt; split <;> rfl
@[simp] theorem State.setPamt_kot (a l : Nat) (e : PamtEntry) : (s.setPamt a l e).kot = s.kot := by unfold State.setPamt; split <;> rfl
@[simp] theorem State.setPamt_wbt (a l : Nat) (e : PamtEntry) : (s.setPamt a l e).wbt = s.wbt := by unfold State.setPamt; split <;> rfl
@[simp] theorem State.setPamt_ket (a l : Nat) (e : PamtEntry) : (s.setPamt a l e).ket = s.ket := by unfold State.setPamt; split <;> rfl
@[simp] theorem State.setPamt_sept (a l : Nat) (e : PamtEntry) : (s.setPamt a l e).sept = s.sept := by unfold State.setPamt; split <;> rfl
@[simp] theorem State.setPamt_tdrs (a l : Nat) (e : PamtEntry) : (s.setPamt a l e).tdrs = s.tdrs := by unfold State.setPamt; split <;> rfl
@[simp] theorem State.setPamt_tdcss (a l : Nat) (e : PamtEntry) : (s.setPamt a l e).tdcss = s.tdcss := by unfold State.setPamt; split <;> rfl
@[simp] theorem State.setPamt_vps (a l : Nat) (e : PamtEntry) : (s.setPamt a l e).vps = s.vps := by unfold State.setPamt; split <;> rfl
@[simp] theorem State.setPamt_locks (a l : Nat) (e : PamtEntry) : (s.setPamt a l e).locks = s.locks := by unfold State.setPamt; split <;> rfl
@[simp] theorem State.setPamt_envLocks (a l : Nat) (e : PamtEntry) : (s.setPamt a l e).envLocks = s.envLocks := by unfold State.setPamt; split <;> rfl
@[simp] theorem State.setPamt_mem (a l : Nat) (e : PamtEntry) : (s.setPamt a l e).mem = s.mem := by unfold State.setPamt; split <;> rfl
@[simp] theorem State.setPamt_tsc (a l : Nat) (e : PamtEntry) : (s.setPamt a l e).tsc = s.tsc := by unfold State.setPamt; split <;> rfl
@[simp] theorem State.setPamt_entropyOk (a l : Nat) (e : PamtEntry) : (s.setPamt a l e).entropyOk = s.entropyOk := by unfold State.setPamt; split <;> rfl
@[simp] theorem State.setPamt_nextKey (a l : Nat) (e : PamtEntry) : (s.setPamt a l e).nextKey = s.nextKey := by unfold State.setPamt; split <;> rfl
@[simp] theorem State.setPamt_raceLost (a l : Nat) (e : PamtEntry) : (s.setPamt a l e).raceLost = s.raceLost := by unfold State.setPamt; split <;> rfl
@[simp] theorem State.setPamt_tick (a l : Nat) (e : PamtEntry) : (s.setPamt a l e).tick = s.tick := by unfold State.setPamt; split <;> rfl

/-! ### State.assignPage -/

@[simp] theorem State.assignPage_plat (a l : Nat) (t : PageType) (o : Nat) : (s.assignPage a l t o).plat = s.plat := by simp [State.assignPage]
@[simp] theorem State.assignPage_curLp (a l : Nat) (t : PageType) (o : Nat) : (s.assignPage a l t o).curLp = s.curLp := by simp [State.assignPage]
@[simp] theorem State.assignPage_schedule (a l : Nat) (t : PageType) (o : Nat) : (s.assignPage a l t o).schedule = s.schedule := by simp [State.assignPage]
@[simp] theorem State.assignPage_lps (a l : Nat) (t : PageType) (o : Nat) : (s.assignPage a l t o).lps = s.lps := by simp [State.assignPage]
@[simp] theorem State.assignPage_sysState (a l : Nat) (t : PageType) (o : Nat) : (s.assignPage a l t o).sysState = s.sysState := by simp [State.assignPage]
@[simp] theorem State.assignPage_seamDisabled (a l : Nat) (t : PageType) (o : Nat) : (s.assignPage a l t o).seamDisabled = s.seamDisabled := by simp [State.assignPage]
@[simp] theorem State.assignPage_pkgConfigBitmap (a l : Nat) (t : PageType) (o : Nat) : (s.assignPage a l t o).pkgConfigBitmap = s.pkgConfigBitmap := by simp [State.assignPage]
@[simp] theorem State.assignPage_sampledTscAdjust (a l : Nat) (t : PageType) (o : Nat) : (s.assignPage a l t o).sampledTscAdjust = s.sampledTscAdjust := by simp [State.assignPage]
@[simp] theorem State.assignPage_globalHkid (a l : Nat) (t : PageType) (o : Nat) : (s.assignPage a l t o).globalHkid = s.globalHkid := by simp [State.assignPage]
@[simp] theorem State.assignPage_tdmrs (a l : Nat) (t : PageType) (o : Nat) : (s.assignPage a l t o).tdmrs = s.tdmrs := by simp [State.assignPage]
@[simp] theorem State.assignPage_kot (a l : Nat) (t : PageType) (o : Nat) : (s.assignPage a l t o).kot = s.kot := by simp [State.assignPage]
@[simp] theorem State.assignPage_wbt (a l : Nat) (t : PageType) (o : Nat) : (s.assignPage a l t o).wbt = s.wbt := by simp [State.assignPage]
@[simp] theorem State.assignPage_ket (a l : Nat) (t : PageType) (o : Nat) : (s.assignPage a l t o).ket = s.ket := by simp [State.assignPage]
@[simp] theorem State.assignPage_sept (a l : Nat) (t : PageType) (o : Nat) : (s.assignPage a l t o).sept = s.sept := by simp [State.assignPage]
@[simp] theorem State.assignPage_tdrs (a l : Nat) (t : PageType) (o : Nat) : (s.assignPage a l t o).tdrs = s.tdrs := by simp [State.assignPage]
@[simp] theorem State.assignPage_tdcss (a l : Nat) (t : PageType) (o : Nat) : (s.assignPage a l t o).tdcss = s.tdcss := by simp [State.assignPage]
@[simp] theorem State.assignPage_vps (a l : Nat) (t : PageType) (o : Nat) : (s.assignPage a l t o).vps = s.vps := by simp [State.assignPage]
@[simp] theorem State.assignPage_locks (a l : Nat) (t : PageType) (o : Nat) : (s.assignPage a l t o).locks = s.locks := by simp [State.assignPage]
@[simp] theorem State.assignPage_envLocks (a l : Nat) (t : PageType) (o : Nat) : (s.assignPage a l t o).envLocks = s.envLocks := by simp [State.assignPage]
@[simp] theorem State.assignPage_mem (a l : Nat) (t : PageType) (o : Nat) : (s.assignPage a l t o).mem = s.mem := by simp [State.assignPage]
@[simp] theorem State.assignPage_tsc (a l : Nat) (t : PageType) (o : Nat) : (s.assignPage a l t o).tsc = s.tsc := by simp [State.assignPage]
@[simp] theorem State.assignPage_entropyOk (a l : Nat) (t : PageType) (o : Nat) : (s.assignPage a l t o).entropyOk = s.entropyOk := by simp [State.assignPage]
@[simp] theorem State.assignPage_nextKey (a l : Nat) (t : PageType) (o : Nat) : (s.assignPage a l t o).nextKey = s.nextKey := by simp [State.assignPage]
@[simp] theorem State.assignPage_raceLost (a l : Nat) (t : PageType) (o : Nat) : (s.assignPage a l t o).raceLost = s.raceLost := by simp [State.assignPage]
@[simp] theorem State.assignPage_tick (a l : Nat) (t : PageType) (o : Nat) : (s.assignPage a l t o).tick = s.tick := by simp [State.assignPage]

/-! ### State.addStale -/

@[simp] theorem State.addStale_plat (a n h : Nat) : (s.addStale a n h).plat = s.plat := rfl
@[simp] theorem State.addStale_curLp (a n h : Nat) : (s.addStale a n h).curLp = s.curLp := rfl
@[simp] theorem State.addStale_schedule (a n h : Nat) : (s.addStale a n h).schedule = s.schedule := rfl
@[simp] theorem State.addStale_lps (a n h : Nat) : (s.addStale a n h).lps = s.lps := rfl
@[simp] theorem State.addStale_sysState (a n h : Nat) : (s.addStale a n h).sysState = s.sysState := rfl
@[simp] theorem State.addStale_seamDisabled (a n h : Nat) : (s.addStale a n h).seamDisabled = s.seamDisabled := rfl
@[simp] theorem State.addStale_pkgConfigBitmap (a n h : Nat) : (s.addStale a n h).pkgConfigBitmap = s.pkgConfigBitmap := rfl
@[simp] theorem State.addStale_sampledTscAdjust (a n h : Nat) : (s.addStale a n h).sampledTscAdjust = s.sampledTscAdjust := rfl
@[simp] theorem State.addStale_globalHkid (a n h : Nat) : (s.addStale a n h).globalHkid = s.globalHkid := rfl
@[simp] theorem State.addStale_tdmrs (a n h : Nat) : (s.addStale a n h).tdmrs = s.tdmrs := rfl
@[simp] theorem State.addStale_kot (a n h : Nat) : (s.addStale a n h).kot = s.kot := rfl
@[simp] theorem State.addStale_wbt (a n h : Nat) : (s.addStale a n h).wbt = s.wbt := rfl
@[simp] theorem State.addStale_ket (a n h : Nat) : (s.addStale a n h).ket = s.ket := rfl
@[simp] theorem State.addStale_pamt4k (a n h : Nat) : (s.addStale a n h).pamt4k = s.pamt4k := rfl
@[simp] theorem State.addStale_pamt2m (a n h : Nat) : (s.addStale a n h).pamt2m = s.pamt2m := rfl
@[simp] theorem State.addStale_pamt1g (a n h : Nat) : (s.addStale a n h).pamt1g = s.pamt1g := rfl
@[simp] theorem State.addStale_sept (a n h : Nat) : (s.addStale a n h).sept = s.sept := rfl
@[simp] theorem State.addStale_tdrs (a n h : Nat) : (s.addStale a n h).tdrs = s.tdrs := rfl
@[simp] theorem State.addStale_tdcss (a n h : Nat) : (s.addStale a n h).tdcss = s.tdcss := rfl
@[simp] theorem State.addStale_vps (a n h : Nat) : (s.addStale a n h).vps = s.vps := rfl
@[simp] theorem State.addStale_locks (a n h : Nat) : (s.addStale a n h).locks = s.locks := rfl
@[simp] theorem State.addStale_envLocks (a n h : Nat) : (s.addStale a n h).envLocks = s.envLocks := rfl
@[simp] theorem State.addStale_tsc (a n h : Nat) : (s.addStale a n h).tsc = s.tsc := rfl
@[simp] theorem State.addStale_entropyOk (a n h : Nat) : (s.addStale a n h).entropyOk = s.entropyOk := rfl
@[simp] theorem State.addStale_nextKey (a n h : Nat) : (s.addStale a n h).nextKey = s.nextKey := rfl
@[simp] theorem State.addStale_raceLost (a n h : Nat) : (s.addStale a n h).raceLost = s.raceLost := rfl
@[simp] theorem State.addStale_tick (a n h : Nat) : (s.addStale a n h).tick = s.tick := rfl

/-! ### State.freePage -/

@[simp] theorem State.freePage_plat (a l : Nat) : (s.freePage a l).plat = s.plat := by unfold State.freePage; split <;> simp
@[simp] theorem State.freePage_curLp (a l : Nat) : (s.freePage a l).curLp = s.curLp := by unfold State.freePage; split <;> simp
@[simp] theorem State.freePage_schedule (a l : Nat) : (s.freePage a l).schedule = s.schedule := by unfold State.freePage; split <;> simp
@[simp] theorem State.freePage_lps (a l : Nat) : (s.freePage a l).lps = s.lps := by unfold State.freePage; split <;> simp
@[simp] theorem State.freePage_sysState (a l : Nat) : (s.freePage a l).sysState = s.sysState := by unfold State.freePage; split <;> simp
@[simp] theorem State.freePage_seamDisabled (a l : Nat) : (s.freePage a l).seamDisabled = s.seamDisabled := by unfold State.freePage; split <;> simp
@[simp] theorem State.freePage_pkgConfigBitmap (a l : Nat) : (s.freePage a l).pkgConfigBitmap = s.pkgConfigBitmap := by unfold State.freePage; split <;> simp
@[simp] theorem State.freePage_sampledTscAdjust (a l : Nat) : (s.freePage a l).sampledTscAdjust = s.sampledTscAdjust := by unfold State.freePage; split <;> simp
@[simp] theorem State.freePage_globalHkid (a l : Nat) : (s.freePage a l).globalHkid = s.globalHkid := by unfold State.freePage; split <;> simp
@[simp] theorem State.freePage_tdmrs (a l : Nat) : (s.freePage a l).tdmrs = s.tdmrs := by unfold State.freePage; split <;> simp
@[simp] theorem State.freePage_kot (a l : Nat) : (s.freePage a l).kot = s.kot := by unfold State.freePage; split <;> simp
@[simp] theorem State.freePage_wbt (a l : Nat) : (s.freePage a l).wbt = s.wbt := by unfold State.freePage; split <;> simp
@[simp] theorem State.freePage_ket (a l : Nat) : (s.freePage a l).ket = s.ket := by unfold State.freePage; split <;> simp
@[simp] theorem State.freePage_sept (a l : Nat) : (s.freePage a l).sept = s.sept := by unfold State.freePage; split <;> simp
@[simp] theorem State.freePage_tdrs (a l : Nat) : (s.freePage a l).tdrs = s.tdrs := by unfold State.freePage; split <;> simp
@[simp] theorem State.freePage_tdcss (a l : Nat) : (s.freePage a l).tdcss = s.tdcss := by unfold State.freePage; split <;> simp
@[simp] theorem State.freePage_vps (a l : Nat) : (s.freePage a l).vps = s.vps := by unfold State.freePage; split <;> simp
@[simp] theorem State.freePage_locks (a l : Nat) : (s.freePage a l).locks = s.locks := by unfold State.freePage; split <;> simp
@[simp] theorem State.freePage_envLocks (a l : Nat) : (s.freePage a l).envLocks = s.envLocks := by unfold State.freePage; split <;> simp
@[simp] theorem State.freePage_tsc (a l : Nat) : (s.freePage a l).tsc = s.tsc := by unfold State.freePage; split <;> simp
@[simp] theorem State.freePage_entropyOk (a l : Nat) : (s.freePage a l).entropyOk = s.entropyOk := by unfold State.freePage; split <;> simp
@[simp] theorem State.freePage_nextKey (a l : Nat) : (s.freePage a l).nextKey = s.nextKey := by unfold State.freePage; split <;> simp
@[simp] theorem State.freePage_raceLost (a l : Nat) : (s.freePage a l).raceLost = s.raceLost := by unfold State.freePage; split <;> simp
@[simp] theorem State.freePage_tick (a l : Nat) : (s.freePage a l).tick = s.tick := by unfold State.freePage; split <;> simp

/-! ### State.setBepoch -/

@[simp] theorem State.setBepoch_plat (a l : Nat) (e : Word) : (s.setBepoch a l e).plat = s.plat := by simp [State.setBepoch]
@[simp] theorem State.setBepoch_curLp (a l : Nat) (e : Word) : (s.setBepoch a l e).curLp = s.curLp := by simp [State.setBepoch]
@[simp] theorem State.setBepoch_schedule (a l : Nat) (e : Word) : (s.setBepoch a l e).schedule = s.schedule := by simp [State.setBepoch]
@[simp] theorem State.setBepoch_lps (a l : Nat) (e : Word) : (s.setBepoch a l e).lps = s.lps := by simp [State.setBepoch]
@[simp] theorem State.setBepoch_sysState (a l : Nat) (e : Word) : (s.setBepoch a l e).sysState = s.sysState := by simp [State.setBepoch]
@[simp] theorem State.setBepoch_seamDisabled (a l : Nat) (e : Word) : (s.setBepoch a l e).seamDisabled = s.seamDisabled := by simp [State.setBepoch]
@[simp] theorem State.setBepoch_pkgConfigBitmap (a l : Nat) (e : Word) : (s.setBepoch a l e).pkgConfigBitmap = s.pkgConfigBitmap := by simp [State.setBepoch]
@[simp] theorem State.setBepoch_sampledTscAdjust (a l : Nat) (e : Word) : (s.setBepoch a l e).sampledTscAdjust = s.sampledTscAdjust := by simp [State.setBepoch]
@[simp] theorem State.setBepoch_globalHkid (a l : Nat) (e : Word) : (s.setBepoch a l e).globalHkid = s.globalHkid := by simp [State.setBepoch]
@[simp] theorem State.setBepoch_tdmrs (a l : Nat) (e : Word) : (s.setBepoch a l e).tdmrs = s.tdmrs := by simp [State.setBepoch]
@[simp] theorem State.setBepoch_kot (a l : Nat) (e : Word) : (s.setBepoch a l e).kot = s.kot := by simp [State.setBepoch]
@[simp] theorem State.setBepoch_wbt (a l : Nat) (e : Word) : (s.setBepoch a l e).wbt = s.wbt := by simp [State.setBepoch]
@[simp] theorem State.setBepoch_ket (a l : Nat) (e : Word) : (s.setBepoch a l e).ket = s.ket := by simp [State.setBepoch]
@[simp] theorem State.setBepoch_sept (a l : Nat) (e : Word) : (s.setBepoch a l e).sept = s.sept := by simp [State.setBepoch]
@[simp] theorem State.setBepoch_tdrs (a l : Nat) (e : Word) : (s.setBepoch a l e).tdrs = s.tdrs := by simp [State.setBepoch]
@[simp] theorem State.setBepoch_tdcss (a l : Nat) (e : Word) : (s.setBepoch a l e).tdcss = s.tdcss := by simp [State.setBepoch]
@[simp] theorem State.setBepoch_vps (a l : Nat) (e : Word) : (s.setBepoch a l e).vps = s.vps := by simp [State.setBepoch]
@[simp] theorem State.setBepoch_locks (a l : Nat) (e : Word) : (s.setBepoch a l e).locks = s.locks := by simp [State.setBepoch]
@[simp] theorem State.setBepoch_envLocks (a l : Nat) (e : Word) : (s.setBepoch a l e).envLocks = s.envLocks := by simp [State.setBepoch]
@[simp] theorem State.setBepoch_mem (a l : Nat) (e : Word) : (s.setBepoch a l e).mem = s.mem := by simp [State.setBepoch]
@[simp] theorem State.setBepoch_tsc (a l : Nat) (e : Word) : (s.setBepoch a l e).tsc = s.tsc := by simp [State.setBepoch]
@[simp] theorem State.setBepoch_entropyOk (a l : Nat) (e : Word) : (s.setBepoch a l e).entropyOk = s.entropyOk := by simp [State.setBepoch]
@[simp] theorem State.setBepoch_nextKey (a l : Nat) (e : Word) : (s.setBepoch a l e).nextKey = s.nextKey := by simp [State.setBepoch]
@[simp] theorem State.setBepoch_raceLost (a l : Nat) (e : Word) : (s.setBepoch a l e).raceLost = s.raceLost := by simp [State.setBepoch]
@[simp] theorem State.setBepoch_tick (a l : Nat) (e : Word) : (s.setBepoch a l e).tick = s.tick := by simp [State.setBepoch]

/-! ### State.setSept -/

@[simp] theorem State.setSept_plat (a : Nat) (e : SeptEntry) : (s.setSept a e).plat = s.plat := rfl
@[simp] theorem State.setSept_curLp (a : Nat) (e : SeptEntry) : (s.setSept a e).curLp = s.curLp := rfl
@[simp] theorem State.setSept_schedule (a : Nat) (e : SeptEntry) : (s.setSept a e).schedule = s.schedule := rfl
@[simp] theorem State.setSept_lps (a : Nat) (e : SeptEntry) : (s.setSept a e).lps = s.lps := rfl
@[simp] theorem State.setSept_sysState (a : Nat) (e : SeptEntry) : (s.setSept a e).sysState = s.sysState := rfl
@[simp] theorem State.setSept_seamDisabled (a : Nat) (e : SeptEntry) : (s.setSept a e).seamDisabled = s.seamDisabled := rfl
@[simp] theorem State.setSept_pkgConfigBitmap (a : Nat) (e : SeptEntry) : (s.setSept a e).pkgConfigBitmap = s.pkgConfigBitmap := rfl
@[simp] theorem State.setSept_sampledTscAdjust (a : Nat) (e : SeptEntry) : (s.setSept a e).sampledTscAdjust = s.sampledTscAdjust := rfl
@[simp] theorem State.setSept_globalHkid (a : Nat) (e : SeptEntry) : (s.setSept a e).globalHkid = s.globalHkid := rfl
@[simp] theorem State.setSept_tdmrs (a : Nat) (e : SeptEntry) : (s.setSept a e).tdmrs = s.tdmrs := rfl
@[simp] theorem State.setSept_kot (a : Nat) (e : SeptEntry) : (s.setSept a e).kot = s.kot := rfl
@[simp] theorem State.setSept_wbt (a : Nat) (e : SeptEntry) : (s.setSept a e).wbt = s.wbt := rfl
@[simp] theorem State.setSept_ket (a : Nat) (e : SeptEntry) : (s.setSept a e).ket = s.ket := rfl
@[simp] theorem State.setSept_pamt4k (a : Nat) (e : SeptEntry) : (s.setSept a e).pamt4k = s.pamt4k := rfl
@[simp] theorem State.setSept_pamt2m (a : Nat) (e : SeptEntry) : (s.setSept a e).pamt2m = s.pamt2m := rfl
@[simp] theorem State.setSept_pamt1g (a : Nat) (e : SeptEntry) : (s.setSept a e).pamt1g = s.pamt1g := rfl
@[simp] theorem State.setSept_tdrs (a : Nat) (e : SeptEntry) : (s.setSept a e).tdrs = s.tdrs := rfl
@[simp] theorem State.setSept_tdcss (a : Nat) (e : SeptEntry) : (s.setSept a e).tdcss = s.tdcss := rfl
@[simp] theorem State.setSept_vps (a : Nat) (e : SeptEntry) : (s.setSept a e).vps = s.vps := rfl
@[simp] theorem State.setSept_locks (a : Nat) (e : SeptEntry) : (s.setSept a e).locks = s.locks := rfl
@[simp] theorem State.setSept_envLocks (a : Nat) (e : SeptEntry) : (s.setSept a e).envLocks = s.envLocks := rfl
@[simp] theorem State.setSept_mem (a : Nat) (e : SeptEntry) : (s.setSept a e).mem = s.mem := rfl
@[simp] theorem State.setSept_tsc (a : Nat) (e : SeptEntry) : (s.setSept a e).tsc = s.tsc := rfl
@[simp] theorem State.setSept_entropyOk (a : Nat) (e : SeptEntry) : (s.setSept a e).entropyOk = s.entropyOk := rfl
@[simp] theorem State.setSept_nextKey (a : Nat) (e : SeptEntry) : (s.setSept a e).nextKey = s.nextKey := rfl
@[simp] theorem State.setSept_raceLost (a : Nat) (e : SeptEntry) : (s.setSept a e).raceLost = s.raceLost := rfl
@[simp] theorem State.setSept_tick (a : Nat) (e : SeptEntry) : (s.setSept a e).tick = s.tick := rfl

/-! ### State.clearSeptPage -/

@[simp] theorem State.clearSeptPage_plat (a : Nat) : (s.clearSeptPage a).plat = s.plat := rfl
@[simp] theorem State.clearSeptPage_curLp (a : Nat) : (s.clearSeptPage a).curLp = s.curLp := rfl
@[simp] theorem State.clearSeptPage_schedule (a : Nat) : (s.clearSeptPage a).schedule = s.schedule := rfl
@[simp] theorem State.clearSeptPage_lps (a : Nat) : (s.clearSeptPage a).lps = s.lps := rfl
@[simp] theorem State.clearSeptPage_sysState (a : Nat) : (s.clearSeptPage a).sysState = s.sysState := rfl
@[simp] theorem State.clearSeptPage_seamDisabled (a : Nat) : (s.clearSeptPage a).seamDisabled = s.seamDisabled := rfl
@[simp] theorem State.clearSeptPage_pkgConfigBitmap (a : Nat) : (s.clearSeptPage a).pkgConfigBitmap = s.pkgConfigBitmap := rfl
@[simp] theorem State.clearSeptPage_sampledTscAdjust (a : Nat) : (s.clearSeptPage a).sampledTscAdjust = s.sampledTscAdjust := rfl
@[simp] theorem State.clearSeptPage_globalHkid (a : Nat) : (s.clearSeptPage a).globalHkid = s.globalHkid := rfl
@[simp] theorem State.clearSeptPage_tdmrs (a : Nat) : (s.clearSeptPage a).tdmrs = s.tdmrs := rfl
@[simp] theorem State.clearSeptPage_kot (a : Nat) : (s.clearSeptPage a).kot = s.kot := rfl
@[simp] theorem State.clearSeptPage_wbt (a : Nat) : (s.clearSeptPage a).wbt = s.wbt := rfl
@[simp] theorem State.clearSeptPage_ket (a : Nat) : (s.clearSeptPage a).ket = s.ket := rfl
@[simp] theorem State.clearSeptPage_pamt4k (a : Nat) : (s.clearSeptPage a).pamt4k = s.pamt4k := rfl
@[simp] theorem State.clearSeptPage_pamt2m (a : Nat) : (s.clearSeptPage a).pamt2m = s.pamt2m := rfl
@[simp] theorem State.clearSeptPage_pamt1g (a : Nat) : (s.clearSeptPage a).pamt1g = s.pamt1g := rfl
@[simp] theorem State.clearSeptPage_tdrs (a : Nat) : (s.clearSeptPage a).tdrs = s.tdrs := rfl
@[simp] theorem State.clearSeptPage_tdcss (a : Nat) : (s.clearSeptPage a).tdcss = s.tdcss := rfl
@[simp] theorem State.clearSeptPage_vps (a : Nat) : (s.clearSeptPage a).vps = s.vps := rfl
@[simp] theorem State.clearSeptPage_locks (a : Nat) : (s.clearSeptPage a).locks = s.locks := rfl
@[simp] theorem State.clearSeptPage_envLocks (a : Nat) : (s.clearSeptPage a).envLocks = s.envLocks := rfl
@[simp] theorem State.clearSeptPage_mem (a : Nat) : (s.clearSeptPage a).mem = s.mem := rfl
@[simp] theorem State.clearSeptPage_tsc (a : Nat) : (s.clearSeptPage a).tsc = s.tsc := rfl
@[simp] theorem State.clearSeptPage_entropyOk (a : Nat) : (s.clearSeptPage a).entropyOk = s.entropyOk := rfl
@[simp] theorem State.clearSeptPage_nextKey (a : Nat) : (s.clearSeptPage a).nextKey = s.nextKey := rfl
@[simp] theorem State.clearSeptPage_raceLost (a : Nat) : (s.clearSeptPage a).raceLost = s.raceLost := rfl
@[simp] theorem State.clearSeptPage_tick (a : Nat) : (s.clearSeptPage a).tick = s.tick := rfl

/-! ### State.fillSeptPage -/

@[simp] theorem State.fillSeptPage_plat (a : Nat) (f : Nat → SeptEntry) : (s.fillSeptPage a f).plat = s.plat := rfl
@[simp] theorem State.fillSeptPage_curLp (a : Nat) (f : Nat → SeptEntry) : (s.fillSeptPage a f).curLp = s.curLp := rfl
@[simp] theorem State.fillSeptPage_schedule (a : Nat) (f : Nat → SeptEntry) : (s.fillSeptPage a f).schedule = s.schedule := rfl
@[simp] theorem State.fillSeptPage_lps (a : Nat) (f : Nat → SeptEntry) : (s.fillSeptPage a f).lps = s.lps := rfl
@[simp] theorem State.fillSeptPage_sysState (a : Nat) (f : Nat → SeptEntry) : (s.fillSeptPage a f).sysState = s.sysState := rfl
@[simp] theorem State.fillSeptPage_seamDisabled (a : Nat) (f : Nat → SeptEntry) : (s.fillSeptPage a f).seamDisabled = s.seamDisabled := rfl
@[simp] theorem State.fillSeptPage_pkgConfigBitmap (a : Nat) (f : Nat → SeptEntry) : (s.fillSeptPage a f).pkgConfigBitmap = s.pkgConfigBitmap := rfl
@[simp] theorem State.fillSeptPage_sampledTscAdjust (a : Nat) (f : Nat → SeptEntry) : (s.fillSeptPage a f).sampledTscAdjust = s.sampledTscAdjust := rfl
@[simp] theorem State.fillSeptPage_globalHkid (a : Nat) (f : Nat → SeptEntry) : (s.fillSeptPage a f).globalHkid = s.globalHkid := rfl
@[simp] theorem State.fillSeptPage_tdmrs (a : Nat) (f : Nat → SeptEntry) : (s.fillSeptPage a f).tdmrs = s.tdmrs := rfl
@[simp] theorem State.fillSeptPage_kot (a : Nat) (f : Nat → SeptEntry) : (s.fillSeptPage a f).kot = s.kot := rfl
@[simp] theorem State.fillSeptPage_wbt (a : Nat) (f : Nat → SeptEntry) : (s.fillSeptPage a f).wbt = s.wbt := rfl
@[simp] theorem State.fillSeptPage_ket (a : Nat) (f : Nat → SeptEntry) : (s.fillSeptPage a f).ket = s.ket := rfl
@[simp] theorem State.fillSeptPage_pamt4k (a : Nat) (f : Nat → SeptEntry) : (s.fillSeptPage a f).pamt4k = s.pamt4k := rfl
@[simp] theorem State.fillSeptPage_pamt2m (a : Nat) (f : Nat → SeptEntry) : (s.fillSeptPage a f).pamt2m = s.pamt2m := rfl
@[simp] theorem State.fillSeptPage_pamt1g (a : Nat) (f : Nat → SeptEntry) : (s.fillSeptPage a f).pamt1g = s.pamt1g := rfl
@[simp] theorem State.fillSeptPage_tdrs (a : Nat) (f : Nat → SeptEntry) : (s.fillSeptPage a f).tdrs = s.tdrs := rfl
@[simp] theorem State.fillSeptPage_tdcss (a : Nat) (f : Nat → SeptEntry) : (s.fillSeptPage a f).tdcss = s.tdcss := rfl
@[simp] theorem State.fillSeptPage_vps (a : Nat) (f : Nat → SeptEntry) : (s.fillSeptPage a f).vps = s.vps := rfl
@[simp] theorem State.fillSeptPage_locks (a : Nat) (f : Nat → SeptEntry) : (s.fillSeptPage a f).locks = s.locks := rfl
@[simp] theorem State.fillSeptPage_envLocks (a : Nat) (f : Nat → SeptEntry) : (s.fillSeptPage a f).envLocks = s.envLocks := rfl
@[simp] theorem State.fillSeptPage_mem (a : Nat) (f : Nat → SeptEntry) : (s.fillSeptPage a f).mem = s.mem := rfl
@[simp] theorem State.fillSeptPage_tsc (a : Nat) (f : Nat → SeptEntry) : (s.fillSeptPage a f).tsc = s.tsc := rfl
@[simp] theorem State.fillSeptPage_entropyOk (a : Nat) (f : Nat → SeptEntry) : (s.fillSeptPage a f).entropyOk = s.entropyOk := rfl
@[simp] theorem State.fillSeptPage_nextKey (a : Nat) (f : Nat → SeptEntry) : (s.fillSeptPage a f).nextKey = s.nextKey := rfl
@[simp] theorem State.fillSeptPage_raceLost (a : Nat) (f : Nat → SeptEntry) : (s.fillSeptPage a f).raceLost = s.raceLost := rfl
@[simp] theorem State.fillSeptPage_tick (a : Nat) (f : Nat → SeptEntry) : (s.fillSeptPage a f).tick = s.tick := rfl

/-! ### State.setKot -/

@[simp] theorem State.setKot_plat (h : Nat) (e : KotEntry) : (s.setKot h e).plat = s.plat := rfl
@[simp] theorem State.setKot_curLp (h : Nat) (e : KotEntry) : (s.setKot h e).curLp = s.curLp := rfl
@[simp] theorem State.setKot_schedule (h : Nat) (e : KotEntry) : (s.setKot h e).schedule = s.schedule := rfl
@[simp] theorem State.setKot_lps (h : Nat) (e : KotEntry) : (s.setKot h e).lps = s.lps := rfl
@[simp] theorem State.setKot_sysState (h : Nat) (e : KotEntry) : (s.setKot h e).sysState = s.sysState := rfl
@[simp] theorem State.setKot_seamDisabled (h : Nat) (e : KotEntry) : (s.setKot h e).seamDisabled = s.seamDisabled := rfl
@[simp] theorem State.setKot_pkgConfigBitmap (h : Nat) (e : KotEntry) : (s.setKot h e).pkgConfigBitmap = s.pkgConfigBitmap := rfl
@[simp] theorem State.setKot_sampledTscAdjust (h : Nat) (e : KotEntry) : (s.setKot h e).sampledTscAdjust = s.sampledTscAdjust := rfl
@[simp] theorem State.setKot_globalHkid (h : Nat) (e : KotEntry) : (s.setKot h e).globalHkid = s.globalHkid := rfl
@[simp] theorem State.setKot_tdmrs (h : Nat) (e : KotEntry) : (s.setKot h e).tdmrs = s.tdmrs := rfl
@[simp] theorem State.setKot_wbt (h : Nat) (e : KotEntry) : (s.setKot h e).wbt = s.wbt := rfl
@[simp] theorem State.setKot_ket (h : Nat) (e : KotEntry) : (s.setKot h e).ket = s.ket := rfl
@[simp] theorem State.setKot_pamt4k (h : Nat) (e : KotEntry) : (s.setKot h e).pamt4k = s.pamt4k := rfl
@[simp] theorem State.setKot_pamt2m (h : Nat) (e : KotEntry) : (s.setKot h e).pamt2m = s.pamt2m := rfl
@[simp] theorem State.setKot_pamt1g (h : Nat) (e : KotEntry) : (s.setKot h e).pamt1g = s.pamt1g := rfl
@[simp] theorem State.setKot_sept (h : Nat) (e : KotEntry) : (s.setKot h e).sept = s.sept := rfl
@[simp] theorem State.setKot_tdrs (h : Nat) (e : KotEntry) : (s.setKot h e).tdrs = s.tdrs := rfl
@[simp] theorem State.setKot_tdcss (h : Nat) (e : KotEntry) : (s.setKot h e).tdcss = s.tdcss := rfl
@[simp] theorem State.setKot_vps (h : Nat) (e : KotEntry) : (s.setKot h e).vps = s.vps := rfl
@[simp] theorem State.setKot_locks (h : Nat) (e : KotEntry) : (s.setKot h e).locks = s.locks := rfl
@[simp] theorem State.setKot_envLocks (h : Nat) (e : KotEntry) : (s.setKot h e).envLocks = s.envLocks := rfl
@[simp] theorem State.setKot_mem (h : Nat) (e : KotEntry) : (s.setKot h e).mem = s.mem := rfl
@[simp] theorem State.setKot_tsc (h : Nat) (e : KotEntry) : (s.setKot h e).tsc = s.tsc := rfl
@[simp] theorem State.setKot_entropyOk (h : Nat) (e : KotEntry) : (s.setKot h e).entropyOk = s.entropyOk := rfl
@[simp] theorem State.setKot_nextKey (h : Nat) (e : KotEntry) : (s.setKot h e).nextKey = s.nextKey := rfl
@[simp] theorem State.setKot_raceLost (h : Nat) (e : KotEntry) : (s.setKot h e).raceLost = s.raceLost := rfl
@[simp] theorem State.setKot_tick (h : Nat) (e : KotEntry) : (s.setKot h e).tick = s.tick := rfl

/-! ### State.setWbt -/

@[simp] theorem State.setWbt_plat (i : Nat) (e : WbtEntry) : (s.setWbt i e).plat = s.plat := rfl
@[simp] theorem State.setWbt_curLp (i : Nat) (e : WbtEntry) : (s.setWbt i e).curLp = s.curLp := rfl
@[simp] theorem State.setWbt_schedule (i : Nat) (e : WbtEntry) : (s.setWbt i e).schedule = s.schedule := rfl
@[simp] theorem State.setWbt_lps (i : Nat) (e : WbtEntry) : (s.setWbt i e).lps = s.lps := rfl
@[simp] theorem State.setWbt_sysState (i : Nat) (e : WbtEntry) : (s.setWbt i e).sysState = s.sysState := rfl
@[simp] theorem State.setWbt_seamDisabled (i : Nat) (e : WbtEntry) : (s.setWbt i e).seamDisabled = s.seamDisabled := rfl
@[simp] theorem State.setWbt_pkgConfigBitmap (i : Nat) (e : WbtEntry) : (s.setWbt i e).pkgConfigBitmap = s.pkgConfigBitmap := rfl
@[simp] theorem State.setWbt_sampledTscAdjust (i : Nat) (e : WbtEntry) : (s.setWbt i e).sampledTscAdjust = s.sampledTscAdjust := rfl
@[simp] theorem State.setWbt_globalHkid (i : Nat) (e : WbtEntry) : (s.setWbt i e).globalHkid = s.globalHkid := rfl
@[simp] theorem State.setWbt_tdmrs (i : Nat) (e : WbtEntry) : (s.setWbt i e).tdmrs = s.tdmrs := rfl
@[simp] theorem State.setWbt_kot (i : Nat) (e : WbtEntry) : (s.setWbt i e).kot = s.kot := rfl
@[simp] theorem State.setWbt_ket (i : Nat) (e : WbtEntry) : (s.setWbt i e).ket = s.ket := rfl
@[simp] theorem State.setWbt_pamt4k (i : Nat) (e : WbtEntry) : (s.setWbt i e).pamt4k = s.pamt4k := rfl
@[simp] theorem State.setWbt_pamt2m (i : Nat) (e : WbtEntry) : (s.setWbt i e).pamt2m = s.pamt2m := rfl
@[simp] theorem State.setWbt_pamt1g (i : Nat) (e : WbtEntry) : (s.setWbt i e).pamt1g = s.pamt1g := rfl
@[simp] theorem State.setWbt_sept (i : Nat) (e : WbtEntry) : (s.setWbt i e).sept = s.sept := rfl
@[simp] theorem State.setWbt_tdrs (i : Nat) (e : WbtEntry) : (s.setWbt i e).tdrs = s.tdrs := rfl
@[simp] theorem State.setWbt_tdcss (i : Nat) (e : WbtEntry) : (s.setWbt i e).tdcss = s.tdcss := rfl
@[simp] theorem State.setWbt_vps (i : Nat) (e : WbtEntry) : (s.setWbt i e).vps = s.vps := rfl
@[simp] theorem State.setWbt_locks (i : Nat) (e : WbtEntry) : (s.setWbt i e).locks = s.locks := rfl
@[simp] theorem State.setWbt_envLocks (i : Nat) (e : WbtEntry) : (s.setWbt i e).envLocks = s.envLocks := rfl
@[simp] theorem State.setWbt_mem (i : Nat) (e : WbtEntry) : (s.setWbt i e).mem = s.mem := rfl
@[simp] theorem State.setWbt_tsc (i : Nat) (e : WbtEntry) : (s.setWbt i e).tsc = s.tsc := rfl
@[simp] theorem State.setWbt_entropyOk (i : Nat) (e : WbtEntry) : (s.setWbt i e).entropyOk = s.entropyOk := rfl
@[simp] theorem State.setWbt_nextKey (i : Nat) (e : WbtEntry) : (s.setWbt i e).nextKey = s.nextKey := rfl
@[simp] theorem State.setWbt_raceLost (i : Nat) (e : WbtEntry) : (s.setWbt i e).raceLost = s.raceLost := rfl
@[simp] theorem State.setWbt_tick (i : Nat) (e : WbtEntry) : (s.setWbt i e).tick = s.tick := rfl

/-! ### writeDirect -/

@[simp] theorem writeDirect_plat (h a : Nat) (bs : List Byte) : (writeDirect s h a bs).plat = s.plat := rfl
@[simp] theorem writeDirect_curLp (h a : Nat) (bs : List Byte) : (writeDirect s h a bs).curLp = s.curLp := rfl
@[simp] theorem writeDirect_schedule (h a : Nat) (bs : List Byte) : (writeDirect s h a bs).schedule = s.schedule := rfl
@[simp] theorem writeDirect_lps (h a : Nat) (bs : List Byte) : (writeDirect s h a bs).lps = s.lps := rfl
@[simp] theorem writeDirect_sysState (h a : Nat) (bs : List Byte) : (writeDirect s h a bs).sysState = s.sysState := rfl
@[simp] theorem writeDirect_seamDisabled (h a : Nat) (bs : List Byte) : (writeDirect s h a bs).seamDisabled = s.seamDisabled := rfl
@[simp] theorem writeDirect_pkgConfigBitmap (h a : Nat) (bs : List Byte) : (writeDirect s h a bs).pkgConfigBitmap = s.pkgConfigBitmap := rfl
@[simp] theorem writeDirect_sampledTscAdjust (h a : Nat) (bs : List Byte) : (writeDirect s h a bs).sampledTscAdjust = s.sampledTscAdjust := rfl
@[simp] theorem writeDirect_globalHkid (h a : Nat) (bs : List Byte) : (writeDirect s h a bs).globalHkid = s.globalHkid := rfl
@[simp] theorem writeDirect_tdmrs (h a : Nat) (bs : List Byte) : (writeDirect s h a bs).tdmrs = s.tdmrs := rfl
@[simp] theorem writeDirect_kot (h a : Nat) (bs : List Byte) : (writeDirect s h a bs).kot = s.kot := rfl
@[simp] theorem writeDirect_wbt (h a : Nat) (bs : List Byte) : (writeDirect s h a bs).wbt = s.wbt := rfl
@[simp] theorem writeDirect_ket (h a : Nat) (bs : List Byte) : (writeDirect s h a bs).ket = s.ket := rfl
@[simp] theorem writeDirect_pamt4k (h a : Nat) (bs : List Byte) : (writeDirect s h a bs).pamt4k = s.pamt4k := rfl
@[simp] theorem writeDirect_pamt2m (h a : Nat) (bs : List Byte) : (writeDirect s h a bs).pamt2m = s.pamt2m := rfl
@[simp] theorem writeDirect_pamt1g (h a : Nat) (bs : List Byte) : (writeDirect s h a bs).pamt1g = s.pamt1g := rfl
@[simp] theorem writeDirect_sept (h a : Nat) (bs : List Byte) : (writeDirect s h a bs).sept = s.sept := rfl
@[simp] theorem writeDirect_tdrs (h a : Nat) (bs : List Byte) : (writeDirect s h a bs).tdrs = s.tdrs := rfl
@[simp] theorem writeDirect_tdcss (h a : Nat) (bs : List Byte) : (writeDirect s h a bs).tdcss = s.tdcss := rfl
@[simp] theorem writeDirect_vps (h a : Nat) (bs : List Byte) : (writeDirect s h a bs).vps = s.vps := rfl
@[simp] theorem writeDirect_locks (h a : Nat) (bs : List Byte) : (writeDirect s h a bs).locks = s.locks := rfl
@[simp] theorem writeDirect_envLocks (h a : Nat) (bs : List Byte) : (writeDirect s h a bs).envLocks = s.envLocks := rfl
@[simp] theorem writeDirect_tsc (h a : Nat) (bs : List Byte) : (writeDirect s h a bs).tsc = s.tsc := rfl
@[simp] theorem writeDirect_entropyOk (h a : Nat) (bs : List Byte) : (writeDirect s h a bs).entropyOk = s.entropyOk := rfl
@[simp] theorem writeDirect_nextKey (h a : Nat) (bs : List Byte) : (writeDirect s h a bs).nextKey = s.nextKey := rfl
@[simp] theorem writeDirect_raceLost (h a : Nat) (bs : List Byte) : (writeDirect s h a bs).raceLost = s.raceLost := rfl
@[simp] theorem writeDirect_tick (h a : Nat) (bs : List Byte) : (writeDirect s h a bs).tick = s.tick := rfl

/-! ### zeroDirect -/

@[simp] theorem zeroDirect_plat (h a n : Nat) : (zeroDirect s h a n).plat = s.plat := rfl
@[simp] theorem zeroDirect_curLp (h a n : Nat) : (zeroDirect s h a n).curLp = s.curLp := rfl
@[simp] theorem zeroDirect_schedule (h a n : Nat) : (zeroDirect s h a n).schedule = s.schedule := rfl
@[simp] theorem zeroDirect_lps (h a n : Nat) : (zeroDirect s h a n).lps = s.lps := rfl
@[simp] theorem zeroDirect_sysState (h a n : Nat) : (zeroDirect s h a n).sysState = s.sysState := rfl
@[simp] theorem zeroDirect_seamDisabled (h a n : Nat) : (zeroDirect s h a n).seamDisabled = s.seamDisabled := rfl
@[simp] theorem zeroDirect_pkgConfigBitmap (h a n : Nat) : (zeroDirect s h a n).pkgConfigBitmap = s.pkgConfigBitmap := rfl
@[simp] theorem zeroDirect_sampledTscAdjust (h a n : Nat) : (zeroDirect s h a n).sampledTscAdjust = s.sampledTscAdjust := rfl
@[simp] theorem zeroDirect_globalHkid (h a n : Nat) : (zeroDirect s h a n).globalHkid = s.globalHkid := rfl
@[simp] theorem zeroDirect_tdmrs (h a n : Nat) : (zeroDirect s h a n).tdmrs = s.tdmrs := rfl
@[simp] theorem zeroDirect_kot (h a n : Nat) : (zeroDirect s h a n).kot = s.kot := rfl
@[simp] theorem zeroDirect_wbt (h a n : Nat) : (zeroDirect s h a n).wbt = s.wbt := rfl
@[simp] theorem zeroDirect_ket (h a n : Nat) : (zeroDirect s h a n).ket = s.ket := rfl
@[simp] theorem zeroDirect_pamt4k (h a n : Nat) : (zeroDirect s h a n).pamt4k = s.pamt4k := rfl
@[simp] theorem zeroDirect_pamt2m (h a n : Nat) : (zeroDirect s h a n).pamt2m = s.pamt2m := rfl
@[simp] theorem zeroDirect_pamt1g (h a n : Nat) : (zeroDirect s h a n).pamt1g = s.pamt1g := rfl
@[simp] theorem zeroDirect_sept (h a n : Nat) : (zeroDirect s h a n).sept = s.sept := rfl
@[simp] theorem zeroDirect_tdrs (h a n : Nat) : (zeroDirect s h a n).tdrs = s.tdrs := rfl
@[simp] theorem zeroDirect_tdcss (h a n : Nat) : (zeroDirect s h a n).tdcss = s.tdcss := rfl
@[simp] theorem zeroDirect_vps (h a n : Nat) : (zeroDirect s h a n).vps = s.vps := rfl
@[simp] theorem zeroDirect_locks (h a n : Nat) : (zeroDirect s h a n).locks = s.locks := rfl
@[simp] theorem zeroDirect_envLocks (h a n : Nat) : (zeroDirect s h a n).envLocks = s.envLocks := rfl
@[simp] theorem zeroDirect_tsc (h a n : Nat) : (zeroDirect s h a n).tsc = s.tsc := rfl
@[simp] theorem zeroDirect_entropyOk (h a n : Nat) : (zeroDirect s h a n).entropyOk = s.entropyOk := rfl
@[simp] theorem zeroDirect_nextKey (h a n : Nat) : (zeroDirect s h a n).nextKey = s.nextKey := rfl
@[simp] theorem zeroDirect_raceLost (h a n : Nat) : (zeroDirect s h a n).raceLost = s.raceLost := rfl
@[simp] theorem zeroDirect_tick (h a n : Nat) : (zeroDirect s h a n).tick = s.tick := rfl

/-! ### writeBack -/

@[simp] theorem writeBack_plat (k h l : Nat) (bs : List Byte) : (writeBack s k h l bs).plat = s.plat := rfl
@[simp] theorem writeBack_curLp (k h l : Nat) (bs : List Byte) : (writeBack s k h l bs).curLp = s.curLp := rfl
@[simp] theorem writeBack_schedule (k h l : Nat) (bs : List Byte) : (writeBack s k h l bs).schedule = s.schedule := rfl
@[simp] theorem writeBack_lps (k h l : Nat) (bs : List Byte) : (writeBack s k h l bs).lps = s.lps := rfl
@[simp] theorem writeBack_sysState (k h l : Nat) (bs : List Byte) : (writeBack s k h l bs).sysState = s.sysState := rfl
@[simp] theorem writeBack_seamDisabled (k h l : Nat) (bs : List Byte) : (writeBack s k h l bs).seamDisabled = s.seamDisabled := rfl
@[simp] theorem writeBack_pkgConfigBitmap (k h l : Nat) (bs : List Byte) : (writeBack s k h l bs).pkgConfigBitmap = s.pkgConfigBitmap := rfl
@[simp] theorem writeBack_sampledTscAdjust (k h l : Nat) (bs : List Byte) : (writeBack s k h l bs).sampledTscAdjust = s.sampledTscAdjust := rfl
@[simp] theorem writeBack_globalHkid (k h l : Nat) (bs : List Byte) : (writeBack s k h l bs).globalHkid = s.globalHkid := rfl
@[simp] theorem writeBack_tdmrs (k h l : Nat) (bs : List Byte) : (writeBack s k h l bs).tdmrs = s.tdmrs := rfl
@[simp] theorem writeBack_kot (k h l : Nat) (bs : List Byte) : (writeBack s k h l bs).kot = s.kot := rfl
@[simp] theorem writeBack_wbt (k h l : Nat) (bs : List Byte) : (writeBack s k h l bs).wbt = s.wbt := rfl
@[simp] theorem writeBack_ket (k h l : Nat) (bs : List Byte) : (writeBack s k h l bs).ket = s.ket := rfl
@[simp] theorem writeBack_pamt4k (k h l : Nat) (bs : List Byte) : (writeBack s k h l bs).pamt4k = s.pamt4k := rfl
@[simp] theorem writeBack_pamt2m (k h l : Nat) (bs : List Byte) : (writeBack s k h l bs).pamt2m = s.pamt2m := rfl
@[simp] theorem writeBack_pamt1g (k h l : Nat) (bs : List Byte) : (writeBack s k h l bs).pamt1g = s.pamt1g := rfl
@[simp] theorem writeBack_sept (k h l : Nat) (bs : List Byte) : (writeBack s k h l bs).sept = s.sept := rfl
@[simp] theorem writeBack_tdrs (k h l : Nat) (bs : List Byte) : (writeBack s k h l bs).tdrs = s.tdrs := rfl
@[simp] theorem writeBack_tdcss (k h l : Nat) (bs : List Byte) : (writeBack s k h l bs).tdcss = s.tdcss := rfl
@[simp] theorem writeBack_vps (k h l : Nat) (bs : List Byte) : (writeBack s k h l bs).vps = s.vps := rfl
@[simp] theorem writeBack_locks (k h l : Nat) (bs : List Byte) : (writeBack s k h l bs).locks = s.locks := rfl
@[simp] theorem writeBack_envLocks (k h l : Nat) (bs : List Byte) : (writeBack s k h l bs).envLocks = s.envLocks := rfl
@[simp] theorem writeBack_tsc (k h l : Nat) (bs : List Byte) : (writeBack s k h l bs).tsc = s.tsc := rfl
@[simp] theorem writeBack_entropyOk (k h l : Nat) (bs : List Byte) : (writeBack s k h l bs).entropyOk = s.entropyOk := rfl
@[simp] theorem writeBack_nextKey (k h l : Nat) (bs : List Byte) : (writeBack s k h l bs).nextKey = s.nextKey := rfl
@[simp] theorem writeBack_raceLost (k h l : Nat) (bs : List Byte) : (writeBack s k h l bs).raceLost = s.raceLost := rfl
@[simp] theorem writeBack_tick (k h l : Nat) (bs : List Byte) : (writeBack s k h l bs).tick = s.tick := rfl

/-! ### writeCached -/

@[simp] theorem writeCached_plat (h a : Nat) (bs : List Byte) : (writeCached s h a bs).plat = s.plat := rfl
@[simp] theorem writeCached_curLp (h a : Nat) (bs : List Byte) : (writeCached s h a bs).curLp = s.curLp := rfl
@[simp] theorem writeCached_schedule (h a : Nat) (bs : List Byte) : (writeCached s h a bs).schedule = s.schedule := rfl
@[simp] theorem writeCached_lps (h a : Nat) (bs : List Byte) : (writeCached s h a bs).lps = s.lps := rfl
@[simp] theorem writeCached_sysState (h a : Nat) (bs : List Byte) : (writeCached s h a bs).sysState = s.sysState := rfl
@[simp] theorem writeCached_seamDisabled (h a : Nat) (bs : List Byte) : (writeCached s h a bs).seamDisabled = s.seamDisabled := rfl
@[simp] theorem writeCached_pkgConfigBitmap (h a : Nat) (bs : List Byte) : (writeCached s h a bs).pkgConfigBitmap = s.pkgConfigBitmap := rfl
@[simp] theorem writeCached_sampledTscAdjust (h a : Nat) (bs : List Byte) : (writeCached s h a bs).sampledTscAdjust = s.sampledTscAdjust := rfl
@[simp] theorem writeCached_globalHkid (h a : Nat) (bs : List Byte) : (writeCached s h a bs).globalHkid = s.globalHkid := rfl
@[simp] theorem writeCached_tdmrs (h a : Nat) (bs : List Byte) : (writeCached s h a bs).tdmrs = s.tdmrs := rfl
@[simp] theorem writeCached_kot (h a : Nat) (bs : List Byte) : (writeCached s h a bs).kot = s.kot := rfl
@[simp] theorem writeCached_wbt (h a : Nat) (bs : List Byte) : (writeCached s h a bs).wbt = s.wbt := rfl
@[simp] theorem writeCached_ket (h a : Nat) (bs : List Byte) : (writeCached s h a bs).ket = s.ket := rfl
@[simp] theorem writeCached_pamt4k (h a : Nat) (bs : List Byte) : (writeCached s h a bs).pamt4k = s.pamt4k := rfl
@[simp] theorem writeCached_pamt2m (h a : Nat) (bs : List Byte) : (writeCached s h a bs).pamt2m = s.pamt2m := rfl
@[simp] theorem writeCached_pamt1g (h a : Nat) (bs : List Byte) : (writeCached s h a bs).pamt1g = s.pamt1g := rfl
@[simp] theorem writeCached_sept (h a : Nat) (bs : List Byte) : (writeCached s h a bs).sept = s.sept := rfl
@[simp] theorem writeCached_tdrs (h a : Nat) (bs : List Byte) : (writeCached s h a bs).tdrs = s.tdrs := rfl
@[simp] theorem writeCached_tdcss (h a : Nat) (bs : List Byte) : (writeCached s h a bs).tdcss = s.tdcss := rfl
@[simp] theorem writeCached_vps (h a : Nat) (bs : List Byte) : (writeCached s h a bs).vps = s.vps := rfl
@[simp] theorem writeCached_locks (h a : Nat) (bs : List Byte) : (writeCached s h a bs).locks = s.locks := rfl
@[simp] theorem writeCached_envLocks (h a : Nat) (bs : List Byte) : (writeCached s h a bs).envLocks = s.envLocks := rfl
@[simp] theorem writeCached_tsc (h a : Nat) (bs : List Byte) : (writeCached s h a bs).tsc = s.tsc := rfl
@[simp] theorem writeCached_entropyOk (h a : Nat) (bs : List Byte) : (writeCached s h a bs).entropyOk = s.entropyOk := rfl
@[simp] theorem writeCached_nextKey (h a : Nat) (bs : List Byte) : (writeCached s h a bs).nextKey = s.nextKey := rfl
@[simp] theorem writeCached_raceLost (h a : Nat) (bs : List Byte) : (writeCached s h a bs).raceLost = s.raceLost := rfl
@[simp] theorem writeCached_tick (h a : Nat) (bs : List Byte) : (writeCached s h a bs).tick = s.tick := rfl

/-! ### writeUncached -/

@[simp] theorem writeUncached_plat (h a : Nat) (bs : List Byte) : (writeUncached s h a bs).plat = s.plat := by obtain ⟨m, e⟩ := writeUncached_frame s h a bs; rw [e]
@[simp] theorem writeUncached_curLp (h a : Nat) (bs : List Byte) : (writeUncached s h a bs).curLp = s.curLp := by obtain ⟨m, e⟩ := writeUncached_frame s h a bs; rw [e]
@[simp] theorem writeUncached_schedule (h a : Nat) (bs : List Byte) : (writeUncached s h a bs).schedule = s.schedule := by obtain ⟨m, e⟩ := writeUncached_frame s h a bs; rw [e]
@[simp] theorem writeUncached_lps (h a : Nat) (bs : List Byte) : (writeUncached s h a bs).lps = s.lps := by obtain ⟨m, e⟩ := writeUncached_frame s h a bs; rw [e]
@[simp] theorem writeUncached_sysState (h a : Nat) (bs : List Byte) : (writeUncached s h a bs).sysState = s.sysState := by obtain ⟨m, e⟩ := writeUncached_frame s h a bs; rw [e]
@[simp] theorem writeUncached_seamDisabled (h a : Nat) (bs : List Byte) : (writeUncached s h a bs).seamDisabled = s.seamDisabled := by obtain ⟨m, e⟩ := writeUncached_frame s h a bs; rw [e]
@[simp] theorem writeUncached_pkgConfigBitmap (h a : Nat) (bs : List Byte) : (writeUncached s h a bs).pkgConfigBitmap = s.pkgConfigBitmap := by obtain ⟨m, e⟩ := writeUncached_frame s h a bs; rw [e]
@[simp] theorem writeUncached_sampledTscAdjust (h a : Nat) (bs : List Byte) : (writeUncached s h a bs).sampledTscAdjust = s.sampledTscAdjust := by obtain ⟨m, e⟩ := writeUncached_frame s h a bs; rw [e]
@[simp] theorem writeUncached_globalHkid (h a : Nat) (bs : List Byte) : (writeUncached s h a bs).globalHkid = s.globalHkid := by obtain ⟨m, e⟩ := writeUncached_frame s h a bs; rw [e]
@[simp] theorem writeUncached_tdmrs (h a : Nat) (bs : List Byte) : (writeUncached s h a bs).tdmrs = s.tdmrs := by obtain ⟨m, e⟩ := writeUncached_frame s h a bs; rw [e]
@[simp] theorem writeUncached_kot (h a : Nat) (bs : List Byte) : (writeUncached s h a bs).kot = s.kot := by obtain ⟨m, e⟩ := writeUncached_frame s h a bs; rw [e]
@[simp] theorem writeUncached_wbt (h a : Nat) (bs : List Byte) : (writeUncached s h a bs).wbt = s.wbt := by obtain ⟨m, e⟩ := writeUncached_frame s h a bs; rw [e]
@[simp] theorem writeUncached_ket (h a : Nat) (bs : List Byte) : (writeUncached s h a bs).ket = s.ket := by obtain ⟨m, e⟩ := writeUncached_frame s h a bs; rw [e]
@[simp] theorem writeUncached_pamt4k (h a : Nat) (bs : List Byte) : (writeUncached s h a bs).pamt4k = s.pamt4k := by obtain ⟨m, e⟩ := writeUncached_frame s h a bs; rw [e]
@[simp] theorem writeUncached_pamt2m (h a : Nat) (bs : List Byte) : (writeUncached s h a bs).pamt2m = s.pamt2m := by obtain ⟨m, e⟩ := writeUncached_frame s h a bs; rw [e]
@[simp] theorem writeUncached_pamt1g (h a : Nat) (bs : List Byte) : (writeUncached s h a bs).pamt1g = s.pamt1g := by obtain ⟨m, e⟩ := writeUncached_frame s h a bs; rw [e]
@[simp] theorem writeUncached_sept (h a : Nat) (bs : List Byte) : (writeUncached s h a bs).sept = s.sept := by obtain ⟨m, e⟩ := writeUncached_frame s h a bs; rw [e]
@[simp] theorem writeUncached_tdrs (h a : Nat) (bs : List Byte) : (writeUncached s h a bs).tdrs = s.tdrs := by obtain ⟨m, e⟩ := writeUncached_frame s h a bs; rw [e]
@[simp] theorem writeUncached_tdcss (h a : Nat) (bs : List Byte) : (writeUncached s h a bs).tdcss = s.tdcss := by obtain ⟨m, e⟩ := writeUncached_frame s h a bs; rw [e]
@[simp] theorem writeUncached_vps (h a : Nat) (bs : List Byte) : (writeUncached s h a bs).vps = s.vps := by obtain ⟨m, e⟩ := writeUncached_frame s h a bs; rw [e]
@[simp] theorem writeUncached_locks (h a : Nat) (bs : List Byte) : (writeUncached s h a bs).locks = s.locks := by obtain ⟨m, e⟩ := writeUncached_frame s h a bs; rw [e]
@[simp] theorem writeUncached_envLocks (h a : Nat) (bs : List Byte) : (writeUncached s h a bs).envLocks = s.envLocks := by obtain ⟨m, e⟩ := writeUncached_frame s h a bs; rw [e]
@[simp] theorem writeUncached_tsc (h a : Nat) (bs : List Byte) : (writeUncached s h a bs).tsc = s.tsc := by obtain ⟨m, e⟩ := writeUncached_frame s h a bs; rw [e]
@[simp] theorem writeUncached_entropyOk (h a : Nat) (bs : List Byte) : (writeUncached s h a bs).entropyOk = s.entropyOk := by obtain ⟨m, e⟩ := writeUncached_frame s h a bs; rw [e]
@[simp] theorem writeUncached_nextKey (h a : Nat) (bs : List Byte) : (writeUncached s h a bs).nextKey = s.nextKey := by obtain ⟨m, e⟩ := writeUncached_frame s h a bs; rw [e]
@[simp] theorem writeUncached_raceLost (h a : Nat) (bs : List Byte) : (writeUncached s h a bs).raceLost = s.raceLost := by obtain ⟨m, e⟩ := writeUncached_frame s h a bs; rw [e]
@[simp] theorem writeUncached_tick (h a : Nat) (bs : List Byte) : (writeUncached s h a bs).tick = s.tick := by obtain ⟨m, e⟩ := writeUncached_frame s h a bs; rw [e]

/-! ### writeDma -/

@[simp] theorem writeDma_plat (h a : Nat) (bs : List Byte) : (writeDma s h a bs).plat = s.plat := by obtain ⟨m, e⟩ := writeDma_frame s h a bs; rw [e]
@[simp] theorem writeDma_curLp (h a : Nat) (bs : List Byte) : (writeDma s h a bs).curLp = s.curLp := by obtain ⟨m, e⟩ := writeDma_frame s h a bs; rw [e]
@[simp] theorem writeDma_schedule (h a : Nat) (bs : List Byte) : (writeDma s h a bs).schedule = s.schedule := by obtain ⟨m, e⟩ := writeDma_frame s h a bs; rw [e]
@[simp] theorem writeDma_lps (h a : Nat) (bs : List Byte) : (writeDma s h a bs).lps = s.lps := by obtain ⟨m, e⟩ := writeDma_frame s h a bs; rw [e]
@[simp] theorem writeDma_sysState (h a : Nat) (bs : List Byte) : (writeDma s h a bs).sysState = s.sysState := by obtain ⟨m, e⟩ := writeDma_frame s h a bs; rw [e]
@[simp] theorem writeDma_seamDisabled (h a : Nat) (bs : List Byte) : (writeDma s h a bs).seamDisabled = s.seamDisabled := by obtain ⟨m, e⟩ := writeDma_frame s h a bs; rw [e]
@[simp] theorem writeDma_pkgConfigBitmap (h a : Nat) (bs : List Byte) : (writeDma s h a bs).pkgConfigBitmap = s.pkgConfigBitmap := by obtain ⟨m, e⟩ := writeDma_frame s h a bs; rw [e]
@[simp] theorem writeDma_sampledTscAdjust (h a : Nat) (bs : List Byte) : (writeDma s h a bs).sampledTscAdjust = s.sampledTscAdjust := by obtain ⟨m, e⟩ := writeDma_frame s h a bs; rw [e]
@[simp] theorem writeDma_globalHkid (h a : Nat) (bs : List Byte) : (writeDma s h a bs).globalHkid = s.globalHkid := by obtain ⟨m, e⟩ := writeDma_frame s h a bs; rw [e]
@[simp] theorem writeDma_tdmrs (h a : Nat) (bs : List Byte) : (writeDma s h a bs).tdmrs = s.tdmrs := by obtain ⟨m, e⟩ := writeDma_frame s h a bs; rw [e]
@[simp] theorem writeDma_kot (h a : Nat) (bs : List Byte) : (writeDma s h a bs).kot = s.kot := by obtain ⟨m, e⟩ := writeDma_frame s h a bs; rw [e]
@[simp] theorem writeDma_wbt (h a : Nat) (bs : List Byte) : (writeDma s h a bs).wbt = s.wbt := by obtain ⟨m, e⟩ := writeDma_frame s h a bs; rw [e]
@[simp] theorem writeDma_ket (h a : Nat) (bs : List Byte) : (writeDma s h a bs).ket = s.ket := by obtain ⟨m, e⟩ := writeDma_frame s h a bs; rw [e]
@[simp] theorem writeDma_pamt4k (h a : Nat) (bs : List Byte) : (writeDma s h a bs).pamt4k = s.pamt4k := by obtain ⟨m, e⟩ := writeDma_frame s h a bs; rw [e]
@[simp] theorem writeDma_pamt2m (h a : Nat) (bs : List Byte) : (writeDma s h a bs).pamt2m = s.pamt2m := by obtain ⟨m, e⟩ := writeDma_frame s h a bs; rw [e]
@[simp] theorem writeDma_pamt1g (h a : Nat) (bs : List Byte) : (writeDma s h a bs).pamt1g = s.pamt1g := by obtain ⟨m, e⟩ := writeDma_frame s h a bs; rw [e]
@[simp] theorem writeDma_sept (h a : Nat) (bs : List Byte) : (writeDma s h a bs).sept = s.sept := by obtain ⟨m, e⟩ := writeDma_frame s h a bs; rw [e]
@[simp] theorem writeDma_tdrs (h a : Nat) (bs : List Byte) : (writeDma s h a bs).tdrs = s.tdrs := by obtain ⟨m, e⟩ := writeDma_frame s h a bs; rw [e]
@[simp] theorem writeDma_tdcss (h a : Nat) (bs : List Byte) : (writeDma s h a bs).tdcss = s.tdcss := by obtain ⟨m, e⟩ := writeDma_frame s h a bs; rw [e]
@[simp] theorem writeDma_vps (h a : Nat) (bs : List Byte) : (writeDma s h a bs).vps = s.vps := by obtain ⟨m, e⟩ := writeDma_frame s h a bs; rw [e]
@[simp] theorem writeDma_locks (h a : Nat) (bs : List Byte) : (writeDma s h a bs).locks = s.locks := by obtain ⟨m, e⟩ := writeDma_frame s h a bs; rw [e]
@[simp] theorem writeDma_envLocks (h a : Nat) (bs : List Byte) : (writeDma s h a bs).envLocks = s.envLocks := by obtain ⟨m, e⟩ := writeDma_frame s h a bs; rw [e]
@[simp] theorem writeDma_tsc (h a : Nat) (bs : List Byte) : (writeDma s h a bs).tsc = s.tsc := by obtain ⟨m, e⟩ := writeDma_frame s h a bs; rw [e]
@[simp] theorem writeDma_entropyOk (h a : Nat) (bs : List Byte) : (writeDma s h a bs).entropyOk = s.entropyOk := by obtain ⟨m, e⟩ := writeDma_frame s h a bs; rw [e]
@[simp] theorem writeDma_nextKey (h a : Nat) (bs : List Byte) : (writeDma s h a bs).nextKey = s.nextKey := by obtain ⟨m, e⟩ := writeDma_frame s h a bs; rw [e]
@[simp] theorem writeDma_raceLost (h a : Nat) (bs : List Byte) : (writeDma s h a bs).raceLost = s.raceLost := by obtain ⟨m, e⟩ := writeDma_frame s h a bs; rw [e]
@[simp] theorem writeDma_tick (h a : Nat) (bs : List Byte) : (writeDma s h a bs).tick = s.tick := by obtain ⟨m, e⟩ := writeDma_frame s h a bs; rw [e]

/-! ### writeTyped -/

@[simp] theorem writeTyped_plat (u : Bool) (h a : Nat) (bs : List Byte) : (writeTyped s u h a bs).plat = s.plat := by unfold writeTyped; split <;> simp
@[simp] theorem writeTyped_curLp (u : Bool) (h a : Nat) (bs : List Byte) : (writeTyped s u h a bs).curLp = s.curLp := by unfold writeTyped; split <;> simp
@[simp] theorem writeTyped_schedule (u : Bool) (h a : Nat) (bs : List Byte) : (writeTyped s u h a bs).schedule = s.schedule := by unfold writeTyped; split <;> simp
@[simp] theorem writeTyped_lps (u : Bool) (h a : Nat) (bs : List Byte) : (writeTyped s u h a bs).lps = s.lps := by unfold writeTyped; split <;> simp
@[simp] theorem writeTyped_sysState (u : Bool) (h a : Nat) (bs : List Byte) : (writeTyped s u h a bs).sysState = s.sysState := by unfold writeTyped; split <;> simp
@[simp] theorem writeTyped_seamDisabled (u : Bool) (h a : Nat) (bs : List Byte) : (writeTyped s u h a bs).seamDisabled = s.seamDisabled := by unfold writeTyped; split <;> simp
@[simp] theorem writeTyped_pkgConfigBitmap (u : Bool) (h a : Nat) (bs : List Byte) : (writeTyped s u h a bs).pkgConfigBitmap = s.pkgConfigBitmap := by unfold writeTyped; split <;> simp
@[simp] theorem writeTyped_sampledTscAdjust (u : Bool) (h a : Nat) (bs : List Byte) : (writeTyped s u h a bs).sampledTscAdjust = s.sampledTscAdjust := by unfold writeTyped; split <;> simp
@[simp] theorem writeTyped_globalHkid (u : Bool) (h a : Nat) (bs : List Byte) : (writeTyped s u h a bs).globalHkid = s.globalHkid := by unfold writeTyped; split <;> simp
@[simp] theorem writeTyped_tdmrs (u : Bool) (h a : Nat) (bs : List Byte) : (writeTyped s u h a bs).tdmrs = s.tdmrs := by unfold writeTyped; split <;> simp
@[simp] theorem writeTyped_kot (u : Bool) (h a : Nat) (bs : List Byte) : (writeTyped s u h a bs).kot = s.kot := by unfold writeTyped; split <;> simp
@[simp] theorem writeTyped_wbt (u : Bool) (h a : Nat) (bs : List Byte) : (writeTyped s u h a bs).wbt = s.wbt := by unfold writeTyped; split <;> simp
@[simp] theorem writeTyped_ket (u : Bool) (h a : Nat) (bs : List Byte) : (writeTyped s u h a bs).ket = s.ket := by unfold writeTyped; split <;> simp
@[simp] theorem writeTyped_pamt4k (u : Bool) (h a : Nat) (bs : List Byte) : (writeTyped s u h a bs).pamt4k = s.pamt4k := by unfold writeTyped; split <;> simp
@[simp] theorem writeTyped_pamt2m (u : Bool) (h a : Nat) (bs : List Byte) : (writeTyped s u h a bs).pamt2m = s.pamt2m := by unfold writeTyped; split <;> simp
@[simp] theorem writeTyped_pamt1g (u : Bool) (h a : Nat) (bs : List Byte) : (writeTyped s u h a bs).pamt1g = s.pamt1g := by unfold writeTyped; split <;> simp
@[simp] theorem writeTyped_sept (u : Bool) (h a : Nat) (bs : List Byte) : (writeTyped s u h a bs).sept = s.sept := by unfold writeTyped; split <;> simp
@[simp] theorem writeTyped_tdrs (u : Bool) (h a : Nat) (bs : List Byte) : (writeTyped s u h a bs).tdrs = s.tdrs := by unfold writeTyped; split <;> simp
@[simp] theorem writeTyped_tdcss (u : Bool) (h a : Nat) (bs : List Byte) : (writeTyped s u h a bs).tdcss = s.tdcss := by unfold writeTyped; split <;> simp
@[simp] theorem writeTyped_vps (u : Bool) (h a : Nat) (bs : List Byte) : (writeTyped s u h a bs).vps = s.vps := by unfold writeTyped; split <;> simp
@[simp] theorem writeTyped_locks (u : Bool) (h a : Nat) (bs : List Byte) : (writeTyped s u h a bs).locks = s.locks := by unfold writeTyped; split <;> simp
@[simp] theorem writeTyped_envLocks (u : Bool) (h a : Nat) (bs : List Byte) : (writeTyped s u h a bs).envLocks = s.envLocks := by unfold writeTyped; split <;> simp
@[simp] theorem writeTyped_tsc (u : Bool) (h a : Nat) (bs : List Byte) : (writeTyped s u h a bs).tsc = s.tsc := by unfold writeTyped; split <;> simp
@[simp] theorem writeTyped_entropyOk (u : Bool) (h a : Nat) (bs : List Byte) : (writeTyped s u h a bs).entropyOk = s.entropyOk := by unfold writeTyped; split <;> simp
@[simp] theorem writeTyped_nextKey (u : Bool) (h a : Nat) (bs : List Byte) : (writeTyped s u h a bs).nextKey = s.nextKey := by unfold writeTyped; split <;> simp
@[simp] theorem writeTyped_raceLost (u : Bool) (h a : Nat) (bs : List Byte) : (writeTyped s u h a bs).raceLost = s.raceLost := by unfold writeTyped; split <;> simp
@[simp] theorem writeTyped_tick (u : Bool) (h a : Nat) (bs : List Byte) : (writeTyped s u h a bs).tick = s.tick := by unfold writeTyped; split <;> simp

/-! ### writeShared -/

@[simp] theorem writeShared_plat (a : Nat) (bs : List Byte) : (writeShared s a bs).plat = s.plat := by unfold writeShared; simp
@[simp] theorem writeShared_curLp (a : Nat) (bs : List Byte) : (writeShared s a bs).curLp = s.curLp := by unfold writeShared; simp
@[simp] theorem writeShared_schedule (a : Nat) (bs : List Byte) : (writeShared s a bs).schedule = s.schedule := by unfold writeShared; simp
@[simp] theorem writeShared_lps (a : Nat) (bs : List Byte) : (writeShared s a bs).lps = s.lps := by unfold writeShared; simp
@[simp] theorem writeShared_sysState (a : Nat) (bs : List Byte) : (writeShared s a bs).sysState = s.sysState := by unfold writeShared; simp
@[simp] theorem writeShared_seamDisabled (a : Nat) (bs : List Byte) : (writeShared s a bs).seamDisabled = s.seamDisabled := by unfold writeShared; simp
@[simp] theorem writeShared_pkgConfigBitmap (a : Nat) (bs : List Byte) : (writeShared s a bs).pkgConfigBitmap = s.pkgConfigBitmap := by unfold writeShared; simp
@[simp] theorem writeShared_sampledTscAdjust (a : Nat) (bs : List Byte) : (writeShared s a bs).sampledTscAdjust = s.sampledTscAdjust := by unfold writeShared; simp
@[simp] theorem writeShared_globalHkid (a : Nat) (bs : List Byte) : (writeShared s a bs).globalHkid = s.globalHkid := by unfold writeShared; simp
@[simp] theorem writeShared_tdmrs (a : Nat) (bs : List Byte) : (writeShared s a bs).tdmrs = s.tdmrs := by unfold writeShared; simp
@[simp] theorem writeShared_kot (a : Nat) (bs : List Byte) : (writeShared s a bs).kot = s.kot := by unfold writeShared; simp
@[simp] theorem writeShared_wbt (a : Nat) (bs : List Byte) : (writeShared s a bs).wbt = s.wbt := by unfold writeShared; simp
@[simp] theorem writeShared_ket (a : Nat) (bs : List Byte) : (writeShared s a bs).ket = s.ket := by unfold writeShared; simp
@[simp] theorem writeShared_pamt4k (a : Nat) (bs : List Byte) : (writeShared s a bs).pamt4k = s.pamt4k := by unfold writeShared; simp
@[simp] theorem writeShared_pamt2m (a : Nat) (bs : List Byte) : (writeShared s a bs).pamt2m = s.pamt2m := by unfold writeShared; simp
@[simp] theorem writeShared_pamt1g (a : Nat) (bs : List Byte) : (writeShared s a bs).pamt1g = s.pamt1g := by unfold writeShared; simp
@[simp] theorem writeShared_sept (a : Nat) (bs : List Byte) : (writeShared s a bs).sept = s.sept := by unfold writeShared; simp
@[simp] theorem writeShared_tdrs (a : Nat) (bs : List Byte) : (writeShared s a bs).tdrs = s.tdrs := by unfold writeShared; simp
@[simp] theorem writeShared_tdcss (a : Nat) (bs : List Byte) : (writeShared s a bs).tdcss = s.tdcss := by unfold writeShared; simp
@[simp] theorem writeShared_vps (a : Nat) (bs : List Byte) : (writeShared s a bs).vps = s.vps := by unfold writeShared; simp
@[simp] theorem writeShared_locks (a : Nat) (bs : List Byte) : (writeShared s a bs).locks = s.locks := by unfold writeShared; simp
@[simp] theorem writeShared_envLocks (a : Nat) (bs : List Byte) : (writeShared s a bs).envLocks = s.envLocks := by unfold writeShared; simp
@[simp] theorem writeShared_tsc (a : Nat) (bs : List Byte) : (writeShared s a bs).tsc = s.tsc := by unfold writeShared; simp
@[simp] theorem writeShared_entropyOk (a : Nat) (bs : List Byte) : (writeShared s a bs).entropyOk = s.entropyOk := by unfold writeShared; simp
@[simp] theorem writeShared_nextKey (a : Nat) (bs : List Byte) : (writeShared s a bs).nextKey = s.nextKey := by unfold writeShared; simp
@[simp] theorem writeShared_raceLost (a : Nat) (bs : List Byte) : (writeShared s a bs).raceLost = s.raceLost := by unfold writeShared; simp
@[simp] theorem writeShared_tick (a : Nat) (bs : List Byte) : (writeShared s a bs).tick = s.tick := by unfold writeShared; simp

/-! ### guestWrite -/

@[simp] theorem guestWrite_plat (o : GuestOperand) (bs : List Byte) : (guestWrite s o bs).plat = s.plat := by unfold guestWrite; simp
@[simp] theorem guestWrite_curLp (o : GuestOperand) (bs : List Byte) : (guestWrite s o bs).curLp = s.curLp := by unfold guestWrite; simp
@[simp] theorem guestWrite_schedule (o : GuestOperand) (bs : List Byte) : (guestWrite s o bs).schedule = s.schedule := by unfold guestWrite; simp
@[simp] theorem guestWrite_lps (o : GuestOperand) (bs : List Byte) : (guestWrite s o bs).lps = s.lps := by unfold guestWrite; simp
@[simp] theorem guestWrite_sysState (o : GuestOperand) (bs : List Byte) : (guestWrite s o bs).sysState = s.sysState := by unfold guestWrite; simp
@[simp] theorem guestWrite_seamDisabled (o : GuestOperand) (bs : List Byte) : (guestWrite s o bs).seamDisabled = s.seamDisabled := by unfold guestWrite; simp
@[simp] theorem guestWrite_pkgConfigBitmap (o : GuestOperand) (bs : List Byte) : (guestWrite s o bs).pkgConfigBitmap = s.pkgConfigBitmap := by unfold guestWrite; simp
@[simp] theorem guestWrite_sampledTscAdjust (o : GuestOperand) (bs : List Byte) : (guestWrite s o bs).sampledTscAdjust = s.sampledTscAdjust := by unfold guestWrite; simp
@[simp] theorem guestWrite_globalHkid (o : GuestOperand) (bs : List Byte) : (guestWrite s o bs).globalHkid = s.globalHkid := by unfold guestWrite; simp
@[simp] theorem guestWrite_tdmrs (o : GuestOperand) (bs : List Byte) : (guestWrite s o bs).tdmrs = s.tdmrs := by unfold guestWrite; simp
@[simp] theorem guestWrite_kot (o : GuestOperand) (bs : List Byte) : (guestWrite s o bs).kot = s.kot := by unfold guestWrite; simp
@[simp] theorem guestWrite_wbt (o : GuestOperand) (bs : List Byte) : (guestWrite s o bs).wbt = s.wbt := by unfold guestWrite; simp
@[simp] theorem guestWrite_ket (o : GuestOperand) (bs : List Byte) : (guestWrite s o bs).ket = s.ket := by unfold guestWrite; simp
@[simp] theorem guestWrite_pamt4k (o : GuestOperand) (bs : List Byte) : (guestWrite s o bs).pamt4k = s.pamt4k := by unfold guestWrite; simp
@[simp] theorem guestWrite_pamt2m (o : GuestOperand) (bs : List Byte) : (guestWrite s o bs).pamt2m = s.pamt2m := by unfold guestWrite; simp
@[simp] theorem guestWrite_pamt1g (o : GuestOperand) (bs : List Byte) : (guestWrite s o bs).pamt1g = s.pamt1g := by unfold guestWrite; simp
@[simp] theorem guestWrite_sept (o : GuestOperand) (bs : List Byte) : (guestWrite s o bs).sept = s.sept := by unfold guestWrite; simp
@[simp] theorem guestWrite_tdrs (o : GuestOperand) (bs : List Byte) : (guestWrite s o bs).tdrs = s.tdrs := by unfold guestWrite; simp
@[simp] theorem guestWrite_tdcss (o : GuestOperand) (bs : List Byte) : (guestWrite s o bs).tdcss = s.tdcss := by unfold guestWrite; simp
@[simp] theorem guestWrite_vps (o : GuestOperand) (bs : List Byte) : (guestWrite s o bs).vps = s.vps := by unfold guestWrite; simp
@[simp] theorem guestWrite_locks (o : GuestOperand) (bs : List Byte) : (guestWrite s o bs).locks = s.locks := by unfold guestWrite; simp
@[simp] theorem guestWrite_envLocks (o : GuestOperand) (bs : List Byte) : (guestWrite s o bs).envLocks = s.envLocks := by unfold guestWrite; simp
@[simp] theorem guestWrite_tsc (o : GuestOperand) (bs : List Byte) : (guestWrite s o bs).tsc = s.tsc := by unfold guestWrite; simp
@[simp] theorem guestWrite_entropyOk (o : GuestOperand) (bs : List Byte) : (guestWrite s o bs).entropyOk = s.entropyOk := by unfold guestWrite; simp
@[simp] theorem guestWrite_nextKey (o : GuestOperand) (bs : List Byte) : (guestWrite s o bs).nextKey = s.nextKey := by unfold guestWrite; simp
@[simp] theorem guestWrite_raceLost (o : GuestOperand) (bs : List Byte) : (guestWrite s o bs).raceLost = s.raceLost := by unfold guestWrite; simp
@[simp] theorem guestWrite_tick (o : GuestOperand) (bs : List Byte) : (guestWrite s o bs).tick = s.tick := by unfold guestWrite; simp

/-! ### hostReturn -/

@[simp] theorem hostReturn_plat (v d : Nat) (o : List (Reg × Word)) : (hostReturn s v d o).plat = s.plat := rfl
@[simp] theorem hostReturn_curLp (v d : Nat) (o : List (Reg × Word)) : (hostReturn s v d o).curLp = s.curLp := rfl
@[simp] theorem hostReturn_schedule (v d : Nat) (o : List (Reg × Word)) : (hostReturn s v d o).schedule = s.schedule := rfl
@[simp] theorem hostReturn_sysState (v d : Nat) (o : List (Reg × Word)) : (hostReturn s v d o).sysState = s.sysState := rfl
@[simp] theorem hostReturn_seamDisabled (v d : Nat) (o : List (Reg × Word)) : (hostReturn s v d o).seamDisabled = s.seamDisabled := rfl
@[simp] theorem hostReturn_pkgConfigBitmap (v d : Nat) (o : List (Reg × Word)) : (hostReturn s v d o).pkgConfigBitmap = s.pkgConfigBitmap := rfl
@[simp] theorem hostReturn_sampledTscAdjust (v d : Nat) (o : List (Reg × Word)) : (hostReturn s v d o).sampledTscAdjust = s.sampledTscAdjust := rfl
@[simp] theorem hostReturn_globalHkid (v d : Nat) (o : List (Reg × Word)) : (hostReturn s v d o).globalHkid = s.globalHkid := rfl
@[simp] theorem hostReturn_tdmrs (v d : Nat) (o : List (Reg × Word)) : (hostReturn s v d o).tdmrs = s.tdmrs := rfl
@[simp] theorem hostReturn_kot (v d : Nat) (o : List (Reg × Word)) : (hostReturn s v d o).kot = s.kot := rfl
@[simp] theorem hostReturn_wbt (v d : Nat) (o : List (Reg × Word)) : (hostReturn s v d o).wbt = s.wbt := rfl
@[simp] theorem hostReturn_ket (v d : Nat) (o : List (Reg × Word)) : (hostReturn s v d o).ket = s.ket := rfl
@[simp] theorem hostReturn_pamt4k (v d : Nat) (o : List (Reg × Word)) : (hostReturn s v d o).pamt4k = s.pamt4k := rfl
@[simp] theorem hostReturn_pamt2m (v d : Nat) (o : List (Reg × Word)) : (hostReturn s v d o).pamt2m = s.pamt2m := rfl
@[simp] theorem hostReturn_pamt1g (v d : Nat) (o : List (Reg × Word)) : (hostReturn s v d o).pamt1g = s.pamt1g := rfl
@[simp] theorem hostReturn_sept (v d : Nat) (o : List (Reg × Word)) : (hostReturn s v d o).sept = s.sept := rfl
@[simp] theorem hostReturn_tdrs (v d : Nat) (o : List (Reg × Word)) : (hostReturn s v d o).tdrs = s.tdrs := rfl
@[simp] theorem hostReturn_tdcss (v d : Nat) (o : List (Reg × Word)) : (hostReturn s v d o).tdcss = s.tdcss := rfl
@[simp] theorem hostReturn_vps (v d : Nat) (o : List (Reg × Word)) : (hostReturn s v d o).vps = s.vps := rfl
@[simp] theorem hostReturn_locks (v d : Nat) (o : List (Reg × Word)) : (hostReturn s v d o).locks = s.locks := rfl
@[simp] theorem hostReturn_envLocks (v d : Nat) (o : List (Reg × Word)) : (hostReturn s v d o).envLocks = s.envLocks := rfl
@[simp] theorem hostReturn_mem (v d : Nat) (o : List (Reg × Word)) : (hostReturn s v d o).mem = s.mem := rfl
@[simp] theorem hostReturn_tsc (v d : Nat) (o : List (Reg × Word)) : (hostReturn s v d o).tsc = s.tsc := rfl
@[simp] theorem hostReturn_entropyOk (v d : Nat) (o : List (Reg × Word)) : (hostReturn s v d o).entropyOk = s.entropyOk := rfl
@[simp] theorem hostReturn_nextKey (v d : Nat) (o : List (Reg × Word)) : (hostReturn s v d o).nextKey = s.nextKey := rfl
@[simp] theorem hostReturn_raceLost (v d : Nat) (o : List (Reg × Word)) : (hostReturn s v d o).raceLost = s.raceLost := rfl
@[simp] theorem hostReturn_tick (v d : Nat) (o : List (Reg × Word)) : (hostReturn s v d o).tick = s.tick := rfl

/-! ### vmfailInvalid -/

@[simp] theorem vmfailInvalid_plat : (vmfailInvalid s).plat = s.plat := rfl
@[simp] theorem vmfailInvalid_curLp : (vmfailInvalid s).curLp = s.curLp := rfl
@[simp] theorem vmfailInvalid_schedule : (vmfailInvalid s).schedule = s.schedule := rfl
@[simp] theorem vmfailInvalid_sysState : (vmfailInvalid s).sysState = s.sysState := rfl
@[simp] theorem vmfailInvalid_seamDisabled : (vmfailInvalid s).seamDisabled = s.seamDisabled := rfl
@[simp] theorem vmfailInvalid_pkgConfigBitmap : (vmfailInvalid s).pkgConfigBitmap = s.pkgConfigBitmap := rfl
@[simp] theorem vmfailInvalid_sampledTscAdjust : (vmfailInvalid s).sampledTscAdjust = s.sampledTscAdjust := rfl
@[simp] theorem vmfailInvalid_globalHkid : (vmfailInvalid s).globalHkid = s.globalHkid := rfl
@[simp] theorem vmfailInvalid_tdmrs : (vmfailInvalid s).tdmrs = s.tdmrs := rfl
@[simp] theorem vmfailInvalid_kot : (vmfailInvalid s).kot = s.kot := rfl
@[simp] theorem vmfailInvalid_wbt : (vmfailInvalid s).wbt = s.wbt := rfl
@[simp] theorem vmfailInvalid_ket : (vmfailInvalid s).ket = s.ket := rfl
@[simp] theorem vmfailInvalid_pamt4k : (vmfailInvalid s).pamt4k = s.pamt4k := rfl
@[simp] theorem vmfailInvalid_pamt2m : (vmfailInvalid s).pamt2m = s.pamt2m := rfl
@[simp] theorem vmfailInvalid_pamt1g : (vmfailInvalid s).pamt1g = s.pamt1g := rfl
@[simp] theorem vmfailInvalid_sept : (vmfailInvalid s).sept = s.sept := rfl
@[simp] theorem vmfailInvalid_tdrs : (vmfailInvalid s).tdrs = s.tdrs := rfl
@[simp] theorem vmfailInvalid_tdcss : (vmfailInvalid s).tdcss = s.tdcss := rfl
@[simp] theorem vmfailInvalid_vps : (vmfailInvalid s).vps = s.vps := rfl
@[simp] theorem vmfailInvalid_locks : (vmfailInvalid s).locks = s.locks := rfl
@[simp] theorem vmfailInvalid_envLocks : (vmfailInvalid s).envLocks = s.envLocks := rfl
@[simp] theorem vmfailInvalid_mem : (vmfailInvalid s).mem = s.mem := rfl
@[simp] theorem vmfailInvalid_tsc : (vmfailInvalid s).tsc = s.tsc := rfl
@[simp] theorem vmfailInvalid_entropyOk : (vmfailInvalid s).entropyOk = s.entropyOk := rfl
@[simp] theorem vmfailInvalid_nextKey : (vmfailInvalid s).nextKey = s.nextKey := rfl
@[simp] theorem vmfailInvalid_raceLost : (vmfailInvalid s).raceLost = s.raceLost := rfl
@[simp] theorem vmfailInvalid_tick : (vmfailInvalid s).tick = s.tick := rfl

/-! ### blockedReturn -/

@[simp] theorem blockedReturn_plat : (blockedReturn s).plat = s.plat := rfl
@[simp] theorem blockedReturn_curLp : (blockedReturn s).curLp = s.curLp := rfl
@[simp] theorem blockedReturn_schedule : (blockedReturn s).schedule = s.schedule := rfl
@[simp] theorem blockedReturn_sysState : (blockedReturn s).sysState = s.sysState := rfl
@[simp] theorem blockedReturn_seamDisabled : (blockedReturn s).seamDisabled = s.seamDisabled := rfl
@[simp] theorem blockedReturn_pkgConfigBitmap : (blockedReturn s).pkgConfigBitmap = s.pkgConfigBitmap := rfl
@[simp] theorem blockedReturn_sampledTscAdjust : (blockedReturn s).sampledTscAdjust = s.sampledTscAdjust := rfl
@[simp] theorem blockedReturn_globalHkid : (blockedReturn s).globalHkid = s.globalHkid := rfl
@[simp] theorem blockedReturn_tdmrs : (blockedReturn s).tdmrs = s.tdmrs := rfl
@[simp] theorem blockedReturn_kot : (blockedReturn s).kot = s.kot := rfl
@[simp] theorem blockedReturn_wbt : (blockedReturn s).wbt = s.wbt := rfl
@[simp] theorem blockedReturn_ket : (blockedReturn s).ket = s.ket := rfl
@[simp] theorem blockedReturn_pamt4k : (blockedReturn s).pamt4k = s.pamt4k := rfl
@[simp] theorem blockedReturn_pamt2m : (blockedReturn s).pamt2m = s.pamt2m := rfl
@[simp] theorem blockedReturn_pamt1g : (blockedReturn s).pamt1g = s.pamt1g := rfl
@[simp] theorem blockedReturn_sept : (blockedReturn s).sept = s.sept := rfl
@[simp] theorem blockedReturn_tdrs : (blockedReturn s).tdrs = s.tdrs := rfl
@[simp] theorem blockedReturn_tdcss : (blockedReturn s).tdcss = s.tdcss := rfl
@[simp] theorem blockedReturn_vps : (blockedReturn s).vps = s.vps := rfl
@[simp] theorem blockedReturn_locks : (blockedReturn s).locks = s.locks := rfl
@[simp] theorem blockedReturn_envLocks : (blockedReturn s).envLocks = s.envLocks := rfl
@[simp] theorem blockedReturn_mem : (blockedReturn s).mem = s.mem := rfl
@[simp] theorem blockedReturn_tsc : (blockedReturn s).tsc = s.tsc := rfl
@[simp] theorem blockedReturn_entropyOk : (blockedReturn s).entropyOk = s.entropyOk := rfl
@[simp] theorem blockedReturn_nextKey : (blockedReturn s).nextKey = s.nextKey := rfl
@[simp] theorem blockedReturn_raceLost : (blockedReturn s).raceLost = s.raceLost := rfl
@[simp] theorem blockedReturn_tick : (blockedReturn s).tick = s.tick := rfl

/-! ### fatalShutdown -/

@[simp] theorem fatalShutdown_plat : (fatalShutdown s).plat = s.plat := rfl
@[simp] theorem fatalShutdown_curLp : (fatalShutdown s).curLp = s.curLp := rfl
@[simp] theorem fatalShutdown_schedule : (fatalShutdown s).schedule = s.schedule := rfl
@[simp] theorem fatalShutdown_sysState : (fatalShutdown s).sysState = s.sysState := rfl
@[simp] theorem fatalShutdown_pkgConfigBitmap : (fatalShutdown s).pkgConfigBitmap = s.pkgConfigBitmap := rfl
@[simp] theorem fatalShutdown_sampledTscAdjust : (fatalShutdown s).sampledTscAdjust = s.sampledTscAdjust := rfl
@[simp] theorem fatalShutdown_globalHkid : (fatalShutdown s).globalHkid = s.globalHkid := rfl
@[simp] theorem fatalShutdown_tdmrs : (fatalShutdown s).tdmrs = s.tdmrs := rfl
@[simp] theorem fatalShutdown_kot : (fatalShutdown s).kot = s.kot := rfl
@[simp] theorem fatalShutdown_wbt : (fatalShutdown s).wbt = s.wbt := rfl
@[simp] theorem fatalShutdown_ket : (fatalShutdown s).ket = s.ket := rfl
@[simp] theorem fatalShutdown_pamt4k : (fatalShutdown s).pamt4k = s.pamt4k := rfl
@[simp] theorem fatalShutdown_pamt2m : (fatalShutdown s).pamt2m = s.pamt2m := rfl
@[simp] theorem fatalShutdown_pamt1g : (fatalShutdown s).pamt1g = s.pamt1g := rfl
@[simp] theorem fatalShutdown_sept : (fatalShutdown s).sept = s.sept := rfl
@[simp] theorem fatalShutdown_tdrs : (fatalShutdown s).tdrs = s.tdrs := rfl
@[simp] theorem fatalShutdown_tdcss : (fatalShutdown s).tdcss = s.tdcss := rfl
@[simp] theorem fatalShutdown_vps : (fatalShutdown s).vps = s.vps := rfl
@[simp] theorem fatalShutdown_locks : (fatalShutdown s).locks = s.locks := rfl
@[simp] theorem fatalShutdown_envLocks : (fatalShutdown s).envLocks = s.envLocks := rfl
@[simp] theorem fatalShutdown_mem : (fatalShutdown s).mem = s.mem := rfl
@[simp] theorem fatalShutdown_tsc : (fatalShutdown s).tsc = s.tsc := rfl
@[simp] theorem fatalShutdown_entropyOk : (fatalShutdown s).entropyOk = s.entropyOk := rfl
@[simp] theorem fatalShutdown_nextKey : (fatalShutdown s).nextKey = s.nextKey := rfl
@[simp] theorem fatalShutdown_raceLost : (fatalShutdown s).raceLost = s.raceLost := rfl
@[simp] theorem fatalShutdown_tick : (fatalShutdown s).tick = s.tick := rfl

/-! ### stopLp -/

@[simp] theorem stopLp_plat (i : Nat) : (stopLp s i).plat = s.plat := rfl
@[simp] theorem stopLp_curLp (i : Nat) : (stopLp s i).curLp = s.curLp := rfl
@[simp] theorem stopLp_schedule (i : Nat) : (stopLp s i).schedule = s.schedule := rfl
@[simp] theorem stopLp_sysState (i : Nat) : (stopLp s i).sysState = s.sysState := rfl
@[simp] theorem stopLp_pkgConfigBitmap (i : Nat) : (stopLp s i).pkgConfigBitmap = s.pkgConfigBitmap := rfl
@[simp] theorem stopLp_sampledTscAdjust (i : Nat) : (stopLp s i).sampledTscAdjust = s.sampledTscAdjust := rfl
@[simp] theorem stopLp_globalHkid (i : Nat) : (stopLp s i).globalHkid = s.globalHkid := rfl
@[simp] theorem stopLp_tdmrs (i : Nat) : (stopLp s i).tdmrs = s.tdmrs := rfl
@[simp] theorem stopLp_kot (i : Nat) : (stopLp s i).kot = s.kot := rfl
@[simp] theorem stopLp_wbt (i : Nat) : (stopLp s i).wbt = s.wbt := rfl
@[simp] theorem stopLp_ket (i : Nat) : (stopLp s i).ket = s.ket := rfl
@[simp] theorem stopLp_pamt4k (i : Nat) : (stopLp s i).pamt4k = s.pamt4k := rfl
@[simp] theorem stopLp_pamt2m (i : Nat) : (stopLp s i).pamt2m = s.pamt2m := rfl
@[simp] theorem stopLp_pamt1g (i : Nat) : (stopLp s i).pamt1g = s.pamt1g := rfl
@[simp] theorem stopLp_sept (i : Nat) : (stopLp s i).sept = s.sept := rfl
@[simp] theorem stopLp_tdrs (i : Nat) : (stopLp s i).tdrs = s.tdrs := rfl
@[simp] theorem stopLp_tdcss (i : Nat) : (stopLp s i).tdcss = s.tdcss := rfl
@[simp] theorem stopLp_vps (i : Nat) : (stopLp s i).vps = s.vps := rfl
@[simp] theorem stopLp_locks (i : Nat) : (stopLp s i).locks = s.locks := rfl
@[simp] theorem stopLp_envLocks (i : Nat) : (stopLp s i).envLocks = s.envLocks := rfl
@[simp] theorem stopLp_mem (i : Nat) : (stopLp s i).mem = s.mem := rfl
@[simp] theorem stopLp_tsc (i : Nat) : (stopLp s i).tsc = s.tsc := rfl
@[simp] theorem stopLp_entropyOk (i : Nat) : (stopLp s i).entropyOk = s.entropyOk := rfl
@[simp] theorem stopLp_nextKey (i : Nat) : (stopLp s i).nextKey = s.nextKey := rfl
@[simp] theorem stopLp_raceLost (i : Nat) : (stopLp s i).raceLost = s.raceLost := rfl
@[simp] theorem stopLp_tick (i : Nat) : (stopLp s i).tick = s.tick := rfl

/-! ### State.tdcallEntered -/

@[simp] theorem State.tdcallEntered_plat (v : Nat) : (s.tdcallEntered v).plat = s.plat := rfl
@[simp] theorem State.tdcallEntered_curLp (v : Nat) : (s.tdcallEntered v).curLp = s.curLp := rfl
@[simp] theorem State.tdcallEntered_schedule (v : Nat) : (s.tdcallEntered v).schedule = s.schedule := rfl
@[simp] theorem State.tdcallEntered_lps (v : Nat) : (s.tdcallEntered v).lps = s.lps := rfl
@[simp] theorem State.tdcallEntered_sysState (v : Nat) : (s.tdcallEntered v).sysState = s.sysState := rfl
@[simp] theorem State.tdcallEntered_seamDisabled (v : Nat) : (s.tdcallEntered v).seamDisabled = s.seamDisabled := rfl
@[simp] theorem State.tdcallEntered_pkgConfigBitmap (v : Nat) : (s.tdcallEntered v).pkgConfigBitmap = s.pkgConfigBitmap := rfl
@[simp] theorem State.tdcallEntered_sampledTscAdjust (v : Nat) : (s.tdcallEntered v).sampledTscAdjust = s.sampledTscAdjust := rfl
@[simp] theorem State.tdcallEntered_globalHkid (v : Nat) : (s.tdcallEntered v).globalHkid = s.globalHkid := rfl
@[simp] theorem State.tdcallEntered_tdmrs (v : Nat) : (s.tdcallEntered v).tdmrs = s.tdmrs := rfl
@[simp] theorem State.tdcallEntered_kot (v : Nat) : (s.tdcallEntered v).kot = s.kot := rfl
@[simp] theorem State.tdcallEntered_wbt (v : Nat) : (s.tdcallEntered v).wbt = s.wbt := rfl
@[simp] theorem State.tdcallEntered_ket (v : Nat) : (s.tdcallEntered v).ket = s.ket := rfl
@[simp] theorem State.tdcallEntered_pamt4k (v : Nat) : (s.tdcallEntered v).pamt4k = s.pamt4k := rfl
@[simp] theorem State.tdcallEntered_pamt2m (v : Nat) : (s.tdcallEntered v).pamt2m = s.pamt2m := rfl
@[simp] theorem State.tdcallEntered_pamt1g (v : Nat) : (s.tdcallEntered v).pamt1g = s.pamt1g := rfl
@[simp] theorem State.tdcallEntered_sept (v : Nat) : (s.tdcallEntered v).sept = s.sept := rfl
@[simp] theorem State.tdcallEntered_tdrs (v : Nat) : (s.tdcallEntered v).tdrs = s.tdrs := rfl
@[simp] theorem State.tdcallEntered_tdcss (v : Nat) : (s.tdcallEntered v).tdcss = s.tdcss := rfl
@[simp] theorem State.tdcallEntered_locks (v : Nat) : (s.tdcallEntered v).locks = s.locks := rfl
@[simp] theorem State.tdcallEntered_envLocks (v : Nat) : (s.tdcallEntered v).envLocks = s.envLocks := rfl
@[simp] theorem State.tdcallEntered_mem (v : Nat) : (s.tdcallEntered v).mem = s.mem := rfl
@[simp] theorem State.tdcallEntered_tsc (v : Nat) : (s.tdcallEntered v).tsc = s.tsc := rfl
@[simp] theorem State.tdcallEntered_entropyOk (v : Nat) : (s.tdcallEntered v).entropyOk = s.entropyOk := rfl
@[simp] theorem State.tdcallEntered_nextKey (v : Nat) : (s.tdcallEntered v).nextKey = s.nextKey := rfl
@[simp] theorem State.tdcallEntered_raceLost (v : Nat) : (s.tdcallEntered v).raceLost = s.raceLost := rfl
@[simp] theorem State.tdcallEntered_tick (v : Nat) : (s.tdcallEntered v).tick = s.tick := rfl

/-! ### guestReturn -/

@[simp] theorem guestReturn_plat (v a d : Nat) (o : List (Reg × Word)) : (guestReturn s v a d o).plat = s.plat := rfl
@[simp] theorem guestReturn_curLp (v a d : Nat) (o : List (Reg × Word)) : (guestReturn s v a d o).curLp = s.curLp := rfl
@[simp] theorem guestReturn_schedule (v a d : Nat) (o : List (Reg × Word)) : (guestReturn s v a d o).schedule = s.schedule := rfl
@[simp] theorem guestReturn_lps (v a d : Nat) (o : List (Reg × Word)) : (guestReturn s v a d o).lps = s.lps := rfl
@[simp] theorem guestReturn_sysState (v a d : Nat) (o : List (Reg × Word)) : (guestReturn s v a d o).sysState = s.sysState := rfl
@[simp] theorem guestReturn_seamDisabled (v a d : Nat) (o : List (Reg × Word)) : (guestReturn s v a d o).seamDisabled = s.seamDisabled := rfl
@[simp] theorem guestReturn_pkgConfigBitmap (v a d : Nat) (o : List (Reg × Word)) : (guestReturn s v a d o).pkgConfigBitmap = s.pkgConfigBitmap := rfl
@[simp] theorem guestReturn_sampledTscAdjust (v a d : Nat) (o : List (Reg × Word)) : (guestReturn s v a d o).sampledTscAdjust = s.sampledTscAdjust := rfl
@[simp] theorem guestReturn_globalHkid (v a d : Nat) (o : List (Reg × Word)) : (guestReturn s v a d o).globalHkid = s.globalHkid := rfl
@[simp] theorem guestReturn_tdmrs (v a d : Nat) (o : List (Reg × Word)) : (guestReturn s v a d o).tdmrs = s.tdmrs := rfl
@[simp] theorem guestReturn_kot (v a d : Nat) (o : List (Reg × Word)) : (guestReturn s v a d o).kot = s.kot := rfl
@[simp] theorem guestReturn_wbt (v a d : Nat) (o : List (Reg × Word)) : (guestReturn s v a d o).wbt = s.wbt := rfl
@[simp] theorem guestReturn_ket (v a d : Nat) (o : List (Reg × Word)) : (guestReturn s v a d o).ket = s.ket := rfl
@[simp] theorem guestReturn_pamt4k (v a d : Nat) (o : List (Reg × Word)) : (guestReturn s v a d o).pamt4k = s.pamt4k := rfl
@[simp] theorem guestReturn_pamt2m (v a d : Nat) (o : List (Reg × Word)) : (guestReturn s v a d o).pamt2m = s.pamt2m := rfl
@[simp] theorem guestReturn_pamt1g (v a d : Nat) (o : List (Reg × Word)) : (guestReturn s v a d o).pamt1g = s.pamt1g := rfl
@[simp] theorem guestReturn_sept (v a d : Nat) (o : List (Reg × Word)) : (guestReturn s v a d o).sept = s.sept := rfl
@[simp] theorem guestReturn_tdrs (v a d : Nat) (o : List (Reg × Word)) : (guestReturn s v a d o).tdrs = s.tdrs := rfl
@[simp] theorem guestReturn_tdcss (v a d : Nat) (o : List (Reg × Word)) : (guestReturn s v a d o).tdcss = s.tdcss := rfl
@[simp] theorem guestReturn_locks (v a d : Nat) (o : List (Reg × Word)) : (guestReturn s v a d o).locks = s.locks := rfl
@[simp] theorem guestReturn_envLocks (v a d : Nat) (o : List (Reg × Word)) : (guestReturn s v a d o).envLocks = s.envLocks := rfl
@[simp] theorem guestReturn_mem (v a d : Nat) (o : List (Reg × Word)) : (guestReturn s v a d o).mem = s.mem := rfl
@[simp] theorem guestReturn_tsc (v a d : Nat) (o : List (Reg × Word)) : (guestReturn s v a d o).tsc = s.tsc := rfl
@[simp] theorem guestReturn_entropyOk (v a d : Nat) (o : List (Reg × Word)) : (guestReturn s v a d o).entropyOk = s.entropyOk := rfl
@[simp] theorem guestReturn_nextKey (v a d : Nat) (o : List (Reg × Word)) : (guestReturn s v a d o).nextKey = s.nextKey := rfl
@[simp] theorem guestReturn_raceLost (v a d : Nat) (o : List (Reg × Word)) : (guestReturn s v a d o).raceLost = s.raceLost := rfl
@[simp] theorem guestReturn_tick (v a d : Nat) (o : List (Reg × Word)) : (guestReturn s v a d o).tick = s.tick := rfl

/-! ### tlbFill -/

@[simp] theorem tlbFill_plat (p : Tdvps) (g l h k : Nat) (b u : Bool) (w : Word) : (tlbFill s p g l h k b u w).plat = s.plat := rfl
@[simp] theorem tlbFill_curLp (p : Tdvps) (g l h k : Nat) (b u : Bool) (w : Word) : (tlbFill s p g l h k b u w).curLp = s.curLp := rfl
@[simp] theorem tlbFill_schedule (p : Tdvps) (g l h k : Nat) (b u : Bool) (w : Word) : (tlbFill s p g l h k b u w).schedule = s.schedule := rfl
@[simp] theorem tlbFill_sysState (p : Tdvps) (g l h k : Nat) (b u : Bool) (w : Word) : (tlbFill s p g l h k b u w).sysState = s.sysState := rfl
@[simp] theorem tlbFill_seamDisabled (p : Tdvps) (g l h k : Nat) (b u : Bool) (w : Word) : (tlbFill s p g l h k b u w).seamDisabled = s.seamDisabled := rfl
@[simp] theorem tlbFill_pkgConfigBitmap (p : Tdvps) (g l h k : Nat) (b u : Bool) (w : Word) : (tlbFill s p g l h k b u w).pkgConfigBitmap = s.pkgConfigBitmap := rfl
@[simp] theorem tlbFill_sampledTscAdjust (p : Tdvps) (g l h k : Nat) (b u : Bool) (w : Word) : (tlbFill s p g l h k b u w).sampledTscAdjust = s.sampledTscAdjust := rfl
@[simp] theorem tlbFill_globalHkid (p : Tdvps) (g l h k : Nat) (b u : Bool) (w : Word) : (tlbFill s p g l h k b u w).globalHkid = s.globalHkid := rfl
@[simp] theorem tlbFill_tdmrs (p : Tdvps) (g l h k : Nat) (b u : Bool) (w : Word) : (tlbFill s p g l h k b u w).tdmrs = s.tdmrs := rfl
@[simp] theorem tlbFill_kot (p : Tdvps) (g l h k : Nat) (b u : Bool) (w : Word) : (tlbFill s p g l h k b u w).kot = s.kot := rfl
@[simp] theorem tlbFill_wbt (p : Tdvps) (g l h k : Nat) (b u : Bool) (w : Word) : (tlbFill s p g l h k b u w).wbt = s.wbt := rfl
@[simp] theorem tlbFill_ket (p : Tdvps) (g l h k : Nat) (b u : Bool) (w : Word) : (tlbFill s p g l h k b u w).ket = s.ket := rfl
@[simp] theorem tlbFill_pamt4k (p : Tdvps) (g l h k : Nat) (b u : Bool) (w : Word) : (tlbFill s p g l h k b u w).pamt4k = s.pamt4k := rfl
@[simp] theorem tlbFill_pamt2m (p : Tdvps) (g l h k : Nat) (b u : Bool) (w : Word) : (tlbFill s p g l h k b u w).pamt2m = s.pamt2m := rfl
@[simp] theorem tlbFill_pamt1g (p : Tdvps) (g l h k : Nat) (b u : Bool) (w : Word) : (tlbFill s p g l h k b u w).pamt1g = s.pamt1g := rfl
@[simp] theorem tlbFill_sept (p : Tdvps) (g l h k : Nat) (b u : Bool) (w : Word) : (tlbFill s p g l h k b u w).sept = s.sept := rfl
@[simp] theorem tlbFill_tdrs (p : Tdvps) (g l h k : Nat) (b u : Bool) (w : Word) : (tlbFill s p g l h k b u w).tdrs = s.tdrs := rfl
@[simp] theorem tlbFill_tdcss (p : Tdvps) (g l h k : Nat) (b u : Bool) (w : Word) : (tlbFill s p g l h k b u w).tdcss = s.tdcss := rfl
@[simp] theorem tlbFill_vps (p : Tdvps) (g l h k : Nat) (b u : Bool) (w : Word) : (tlbFill s p g l h k b u w).vps = s.vps := rfl
@[simp] theorem tlbFill_locks (p : Tdvps) (g l h k : Nat) (b u : Bool) (w : Word) : (tlbFill s p g l h k b u w).locks = s.locks := rfl
@[simp] theorem tlbFill_envLocks (p : Tdvps) (g l h k : Nat) (b u : Bool) (w : Word) : (tlbFill s p g l h k b u w).envLocks = s.envLocks := rfl
@[simp] theorem tlbFill_mem (p : Tdvps) (g l h k : Nat) (b u : Bool) (w : Word) : (tlbFill s p g l h k b u w).mem = s.mem := rfl
@[simp] theorem tlbFill_tsc (p : Tdvps) (g l h k : Nat) (b u : Bool) (w : Word) : (tlbFill s p g l h k b u w).tsc = s.tsc := rfl
@[simp] theorem tlbFill_entropyOk (p : Tdvps) (g l h k : Nat) (b u : Bool) (w : Word) : (tlbFill s p g l h k b u w).entropyOk = s.entropyOk := rfl
@[simp] theorem tlbFill_nextKey (p : Tdvps) (g l h k : Nat) (b u : Bool) (w : Word) : (tlbFill s p g l h k b u w).nextKey = s.nextKey := rfl
@[simp] theorem tlbFill_raceLost (p : Tdvps) (g l h k : Nat) (b u : Bool) (w : Word) : (tlbFill s p g l h k b u w).raceLost = s.raceLost := rfl
@[simp] theorem tlbFill_tick (p : Tdvps) (g l h k : Nat) (b u : Bool) (w : Word) : (tlbFill s p g l h k b u w).tick = s.tick := rfl

/-! ### State.ticked -/

@[simp] theorem State.ticked_plat : (s.ticked).plat = s.plat := rfl
@[simp] theorem State.ticked_curLp : (s.ticked).curLp = s.curLp := rfl
@[simp] theorem State.ticked_schedule : (s.ticked).schedule = s.schedule := rfl
@[simp] theorem State.ticked_lps : (s.ticked).lps = s.lps := rfl
@[simp] theorem State.ticked_sysState : (s.ticked).sysState = s.sysState := rfl
@[simp] theorem State.ticked_seamDisabled : (s.ticked).seamDisabled = s.seamDisabled := rfl
@[simp] theorem State.ticked_pkgConfigBitmap : (s.ticked).pkgConfigBitmap = s.pkgConfigBitmap := rfl
@[simp] theorem State.ticked_sampledTscAdjust : (s.ticked).sampledTscAdjust = s.sampledTscAdjust := rfl
@[simp] theorem State.ticked_globalHkid : (s.ticked).globalHkid = s.globalHkid := rfl
@[simp] theorem State.ticked_tdmrs : (s.ticked).tdmrs = s.tdmrs := rfl
@[simp] theorem State.ticked_kot : (s.ticked).kot = s.kot := rfl
@[simp] theorem State.ticked_wbt : (s.ticked).wbt = s.wbt := rfl
@[simp] theorem State.ticked_ket : (s.ticked).ket = s.ket := rfl
@[simp] theorem State.ticked_pamt4k : (s.ticked).pamt4k = s.pamt4k := rfl
@[simp] theorem State.ticked_pamt2m : (s.ticked).pamt2m = s.pamt2m := rfl
@[simp] theorem State.ticked_pamt1g : (s.ticked).pamt1g = s.pamt1g := rfl
@[simp] theorem State.ticked_sept : (s.ticked).sept = s.sept := rfl
@[simp] theorem State.ticked_tdrs : (s.ticked).tdrs = s.tdrs := rfl
@[simp] theorem State.ticked_tdcss : (s.ticked).tdcss = s.tdcss := rfl
@[simp] theorem State.ticked_vps : (s.ticked).vps = s.vps := rfl
@[simp] theorem State.ticked_locks : (s.ticked).locks = s.locks := rfl
@[simp] theorem State.ticked_envLocks : (s.ticked).envLocks = s.envLocks := rfl
@[simp] theorem State.ticked_mem : (s.ticked).mem = s.mem := rfl
@[simp] theorem State.ticked_tsc : (s.ticked).tsc = s.tsc := rfl
@[simp] theorem State.ticked_entropyOk : (s.ticked).entropyOk = s.entropyOk := rfl
@[simp] theorem State.ticked_nextKey : (s.ticked).nextKey = s.nextKey := rfl
@[simp] theorem State.ticked_raceLost : (s.ticked).raceLost = s.raceLost := rfl

end Sys2Proof.Machine
end

