-- ==== Sys2Proof/Laws/Table.lean ====
section
/-! SUPPORT. The laws of sparse tables: what a read gives after each update, and that every update keeps the canonical
form. -/

namespace Sys2Proof.Machine

/-! ## Reads after updates -/

theorem tblGet_tblSet {α : Type} (t : Table α) (i j : Nat) (v : α) :
    tblGet (tblSet t i v) j = if i = j then some v else tblGet t j := by
  induction t with
  | nil => simp [tblSet, tblGet]
  | cons e t ih =>
    obtain ⟨k, w⟩ := e
    simp only [tblSet]
    split
    · rename_i h
      subst h
      by_cases h3 : k = j <;> simp [tblGet, h3]
    · split
      · by_cases h3 : i = j <;> simp [tblGet, h3]
      · rename_i h _
        by_cases h4 : k = j
        · have h5 : ¬ i = j := fun h5 => h (h4.trans h5.symm)
          simp [tblGet, h4, h5]
        · simp [tblGet, h4, ih]

theorem tblGet_tblMod {α : Type} (t : Table α) (i j : Nat) (f : α → α) :
    tblGet (tblMod t i f) j = if i = j then (tblGet t j).map f else tblGet t j := by
  induction t with
  | nil => simp [tblMod, tblGet]
  | cons e t ih =>
    obtain ⟨k, w⟩ := e
    by_cases h1 : k = i <;> by_cases h3 : i = j <;> by_cases h4 : k = j <;> simp_all [tblMod, tblGet]

theorem tblGet_tblDel {α : Type} (t : Table α) (i j : Nat) :
    tblGet (tblDel t i) j = if i = j then none else tblGet t j := by
  induction t with
  | nil => simp [tblDel, tblGet]
  | cons e t ih =>
    obtain ⟨k, w⟩ := e
    unfold tblDel at ih ⊢
    by_cases h1 : k = i <;> by_cases h3 : i = j <;> by_cases h4 : k = j <;> simp_all [tblGet]

@[simp] theorem tblGet_tblSet_self {α : Type} (t : Table α) (i : Nat) (v : α) : tblGet (tblSet t i v) i = some v := by
  simp [tblGet_tblSet]

@[simp] theorem tblGet_tblMod_self {α : Type} (t : Table α) (i : Nat) (f : α → α) :
    tblGet (tblMod t i f) i = (tblGet t i).map f := by simp [tblGet_tblMod]

/-- A key that no entry has reads as absent. -/
theorem tblGet_eq_none {α : Type} {t : Table α} {i : Nat} (h : ∀ v, (i, v) ∉ t) : tblGet t i = none := by
  induction t with
  | nil => rfl
  | cons e t ih =>
    obtain ⟨k, w⟩ := e
    have hk : k ≠ i := fun hk => h w (by simp [hk])
    simp only [tblGet, hk, if_false]
    exact ih fun v hv => h v (List.mem_cons_of_mem _ hv)

/-- A present entry is listed. -/
theorem mem_of_tblGet {α : Type} {t : Table α} {i : Nat} {v : α} (h : tblGet t i = some v) : (i, v) ∈ t := by
  induction t with
  | nil => simp [tblGet] at h
  | cons e t ih =>
    obtain ⟨k, w⟩ := e
    simp only [tblGet] at h
    split at h
    · simp_all
    · exact List.mem_cons_of_mem _ (ih h)

/-! ## The canonical form -/

/-- What `risingFrom` says: every key is at least the bound, and the keys strictly rise. -/
theorem risingFrom_iff {α : Type} (t : Table α) (lo : Nat) :
    risingFrom lo t = true ↔ (∀ e ∈ t, lo ≤ e.1) ∧ t.Pairwise (fun a b => a.1 < b.1) := by
  induction t generalizing lo with
  | nil => simp [risingFrom]
  | cons e t ih =>
    obtain ⟨k, w⟩ := e
    simp only [risingFrom, Bool.and_eq_true, decide_eq_true_eq, ih, List.mem_cons, List.pairwise_cons]
    refine ⟨fun ⟨hlo, hk, hs⟩ => ⟨fun x hx => ?_, hk, hs⟩, fun ⟨hlo, hk, hs⟩ => ⟨hlo (k, w) (.inl rfl), hk, hs⟩⟩
    rcases hx with hx | hx
    · rw [hx]; exact hlo
    · have := hk x hx; omega

theorem tblWf_iff {α : Type} (t : Table α) : tblWf t = true ↔ t.Pairwise (fun a b => a.1 < b.1) := by
  simp [tblWf, risingFrom_iff]

theorem tblWf_sublist {α : Type} {t u : Table α} (h : u.Sublist t) (ht : tblWf t = true) : tblWf u = true := by
  rw [tblWf_iff] at *
  exact ht.sublist h

theorem tblWf_filter {α : Type} {t : Table α} (p : Nat × α → Bool) (ht : tblWf t = true) :
    tblWf (t.filter p) = true :=
  tblWf_sublist List.filter_sublist ht

theorem tblWf_tblDel {α : Type} {t : Table α} (i : Nat) (ht : tblWf t = true) : tblWf (tblDel t i) = true :=
  tblWf_filter _ ht

theorem mem_tblSet {α : Type} {t : Table α} {i : Nat} {v : α} {e : Nat × α} (h : e ∈ tblSet t i v) :
    e = (i, v) ∨ e ∈ t := by
  induction t with
  | nil => simpa [tblSet] using h
  | cons x t ih =>
    obtain ⟨k, w⟩ := x
    unfold tblSet at h
    split at h
    · simp only [List.mem_cons] at *; tauto
    · split at h
      · simpa using h
      · simp only [List.mem_cons] at *; tauto

theorem tblWf_tblSet {α : Type} {t : Table α} (i : Nat) (v : α) (ht : tblWf t = true) :
    tblWf (tblSet t i v) = true := by
  rw [tblWf_iff] at *
  induction t with
  | nil => simp [tblSet]
  | cons x t ih =>
    obtain ⟨k, w⟩ := x
    rw [List.pairwise_cons] at ht
    unfold tblSet
    split
    · rename_i h
      subst h
      exact List.pairwise_cons.2 ht
    · split
      · rename_i h
        refine List.pairwise_cons.2 ⟨?_, List.pairwise_cons.2 ht⟩
        intro b hb
        rcases List.mem_cons.1 hb with rfl | hb
        · exact h
        · exact lt_trans h (ht.1 b hb)
      · refine List.pairwise_cons.2 ⟨?_, ih ht.2⟩
        intro b hb
        rcases mem_tblSet hb with rfl | hb
        · show k < i; omega
        · exact ht.1 b hb

theorem tblMod_keys {α : Type} (t : Table α) (i : Nat) (f : α → α) :
    (tblMod t i f).map Prod.fst = t.map Prod.fst := by
  induction t with
  | nil => rfl
  | cons x t ih =>
    obtain ⟨k, w⟩ := x
    unfold tblMod
    split <;> simp_all

theorem tblWf_keys {α : Type} (t : Table α) : tblWf t = true ↔ (t.map Prod.fst).Pairwise (· < ·) := by
  rw [tblWf_iff, List.pairwise_map]

theorem tblWf_tblMod {α : Type} {t : Table α} (i : Nat) (f : α → α) (ht : tblWf t = true) :
    tblWf (tblMod t i f) = true := by
  rw [tblWf_keys] at *
  rwa [tblMod_keys]

/-- A table with a run of keys replaced is canonical when the run is. -/
theorem tblWf_splice {α : Type} {t mid : Table α} {lo hi : Nat} (ht : tblWf t = true) (hm : tblWf mid = true)
    (hle : lo ≤ hi) (hmid : ∀ e ∈ mid, lo ≤ e.1 ∧ e.1 < hi) :
    tblWf (t.filter (fun e => decide (e.1 < lo)) ++ mid ++ t.filter (fun e => decide (hi ≤ e.1))) = true := by
  rw [tblWf_iff] at *
  rw [List.pairwise_append, List.pairwise_append]
  refine ⟨⟨ht.sublist List.filter_sublist, hm, ?_⟩, ht.sublist List.filter_sublist, ?_⟩
  · intro a ha b hb
    simp only [List.mem_filter, decide_eq_true_eq] at ha
    have := (hmid b hb).1
    omega
  · intro a ha b hb
    simp only [List.mem_append, List.mem_filter, decide_eq_true_eq] at ha hb
    rcases ha with ha | ha
    · omega
    · have := (hmid a ha).2
      omega

end Sys2Proof.Machine
end

