-- ==== Sys2Proof/Laws/Vcpu.lean ====
section
/-! SUPPORT. The fields of a VCPU after an update: tables of 64-bit values, the TD VMCS, what TDH.VP.INIT leaves in it,
what an exception does (12_state_vcpu.md rules R164 to R189; 60_exceptions.md rule R711). -/

namespace Sys2Proof.Machine

/-! ## Tables of 64-bit values -/

theorem regGet_regSet (r : RegFile) (i j : Nat) (v : Word) :
    regGet (regSet r i v) j = if i = j then v else regGet r j := by
  unfold regGet regSet
  split
  · rename_i h
    rw [tblGet_tblDel]
    split <;> simp [h]
  · rw [tblGet_tblSet]
    split <;> simp

theorem regGet_regSetAll_of_notMem (l : List (Nat × Word)) (r : RegFile) (j : Nat) (h : ∀ e ∈ l, e.1 ≠ j) :
    regGet (regSetAll r l) j = regGet r j := by
  induction l generalizing r with
  | nil => rfl
  | cons e l ih =>
    obtain ⟨i, v⟩ := e
    simp only [regSetAll]
    rw [ih _ fun e he => h e (by simp [he]), regGet_regSet, if_neg (h (i, v) (by simp))]

theorem regSetAll_append (l m : List (Nat × Word)) (r : RegFile) :
    regSetAll r (l ++ m) = regSetAll (regSetAll r l) m := by
  induction l generalizing r with
  | nil => rfl
  | cons e l ih =>
    obtain ⟨i, v⟩ := e
    simp only [List.cons_append, regSetAll, ih]

/-- Writing one element of an array changes no other; it reads 0 beyond its end. -/
theorem arraySet_getD (l : List Word) (i j : Nat) (x : Word) :
    (arraySet l i x).getD j 0 = if j = i then x else l.getD j 0 := by
  simp only [arraySet, List.getD_eq_getElem?_getD, List.getElem?_set, List.length_append, List.length_replicate]
  by_cases h : i = j
  · subst h
    rw [if_pos rfl, if_pos (by omega)]
    simp
  · rw [if_neg h, if_neg (Ne.symm h), List.getElem?_append]
    split
    · rfl
    · rename_i hj
      rw [List.getElem?_replicate, List.getElem?_eq_none (by omega)]
      split <;> rfl

/-! ## The TD VMCS -/

theorem setVm_vm (p : Tdvps) (i j : Nat) (x : Word) : (p.setVm i x).vm j = if i = j then x else p.vm j :=
  regGet_regSet _ _ _ _

theorem setVms_vm_of_notMem (p : Tdvps) (l : List (Nat × Word)) (j : Nat) (h : ∀ e ∈ l, e.1 ≠ j) :
    (p.setVms l).vm j = p.vm j := regGet_regSetAll_of_notMem _ _ _ h

/-- A field the VM exit does not record keeps its value. -/
theorem recordExit_vm (p : Tdvps) (x : VmExit) (j : Nat)
    (h : j ∉ [Vmcs.exitReason, Vmcs.exitQualification, Vmcs.gla, Vmcs.gpa, Vmcs.exitIntrInfo, Vmcs.exitIntrError,
      Vmcs.idtVectoring, Vmcs.idtError, Vmcs.exitInstrLength, Vmcs.exitInstrInfo, Vmcs.ioRcx, Vmcs.ioRsi, Vmcs.ioRdi,
      Vmcs.ioRip, Vmcs.instrError, Vmcs.entryIntrInfo, Vmcs.entryControls]) :
    (recordExit p x).vm j = p.vm j := by
  refine setVms_vm_of_notMem _ _ _ fun e he hj => h ?_
  have hm := List.mem_map_of_mem (f := Prod.fst) he
  simp only [List.map_cons, List.map_nil] at hm
  rwa [hj] at hm

/-- A field that an injected exception does not write keeps its value. -/
theorem injectException_vm (p : Tdvps) (vector : Nat) (error : Option Word) (j : Nat)
    (h : j ∉ [Vmcs.entryIntrInfo, Vmcs.entryErrorCode]) : (injectException p vector error).vm j = p.vm j := by
  refine setVms_vm_of_notMem p _ j fun e he hj => h ?_
  have hm := List.mem_map_of_mem (f := Prod.fst) he
  simp only [List.map_cons, List.map_nil] at hm
  rwa [hj] at hm

/-- The VM-entry interruption information and error code that an injected exception leaves. -/
theorem injectException_entry (p : Tdvps) (vector : Nat) (error : Option Word) :
    (injectException p vector error).vm Vmcs.entryIntrInfo =
        w64 (0x80000300 + vector + if error.isSome then 0x800 else 0) ∧
      (injectException p vector error).vm Vmcs.entryErrorCode = error.getD 0 := by
  constructor
  · show regGet (regSet (regSet p.vmcs _ _) _ _) _ = _
    rw [regGet_regSet, regGet_regSet, if_neg (by decide), if_pos rfl]
  · show regGet (regSet (regSet p.vmcs _ _) _ _) _ = _
    rw [regGet_regSet, if_pos rfl]

section
variable (p : Tdvps)

@[simp] theorem recordExit_gprs (x : VmExit) : (recordExit p x).gprs = p.gprs := rfl
@[simp] theorem recordExit_event (x : VmExit) : (recordExit p x).event = p.event := rfl
@[simp] theorem recordExit_veInfo (x : VmExit) : (recordExit p x).veInfo = p.veInfo := rfl
@[simp] theorem recordExit_vcpuState (x : VmExit) : (recordExit p x).vcpuState = p.vcpuState := rfl
@[simp] theorem recordExit_vcpuIndex (x : VmExit) : (recordExit p x).vcpuIndex = p.vcpuIndex := rfl
@[simp] theorem recordExit_vcpuEpoch (x : VmExit) : (recordExit p x).vcpuEpoch = p.vcpuEpoch := rfl
@[simp] theorem recordExit_pagePa (x : VmExit) : (recordExit p x).pagePa = p.pagePa := rfl
@[simp] theorem recordExit_lastExitTsc (x : VmExit) : (recordExit p x).lastExitTsc = p.lastExitTsc := rfl
@[simp] theorem recordExit_pendNmi (x : VmExit) : (recordExit p x).pendNmi = p.pendNmi := rfl
@[simp] theorem recordExit_xcr0 (x : VmExit) : (recordExit p x).xcr0 = p.xcr0 := rfl
@[simp] theorem recordExit_xbuff (x : VmExit) : (recordExit p x).xbuff = p.xbuff := rfl
@[simp] theorem recordExit_msrs (x : VmExit) : (recordExit p x).msrs = p.msrs := rfl
@[simp] theorem recordExit_xfam (x : VmExit) : (recordExit p x).xfam = p.xfam := rfl
@[simp] theorem recordExit_mtfPending (x : VmExit) : (recordExit p x).mtfPending = false := rfl
@[simp] theorem recordExit_accept (x : VmExit) : (recordExit p x).accept = p.accept := rfl
@[simp] theorem saveExt_gprs (n : Nat) : (p.saveExt n).gprs = p.gprs := rfl
@[simp] theorem saveExt_vmcs (n : Nat) : (p.saveExt n).vmcs = p.vmcs := rfl
@[simp] theorem saveExt_vm (n j : Nat) : (p.saveExt n).vm j = p.vm j := rfl
@[simp] theorem saveExt_vcpuState (n : Nat) : (p.saveExt n).vcpuState = p.vcpuState := rfl
@[simp] theorem saveExt_vcpuEpoch (n : Nat) : (p.saveExt n).vcpuEpoch = p.vcpuEpoch := rfl
@[simp] theorem saveExt_lastExitTsc (n : Nat) : (p.saveExt n).lastExitTsc = p.lastExitTsc := rfl
@[simp] theorem saveExt_mtfPending (n : Nat) : (p.saveExt n).mtfPending = p.mtfPending := rfl
@[simp] theorem saveExt_accept (n : Nat) : (p.saveExt n).accept = p.accept := rfl
@[simp] theorem saveExt_pagePa (n : Nat) : (p.saveExt n).pagePa = p.pagePa := rfl
@[simp] theorem loadExt_gprs : p.loadExt.gprs = p.gprs := rfl
@[simp] theorem loadExt_vmcs : p.loadExt.vmcs = p.vmcs := rfl
@[simp] theorem loadExt_vm (j : Nat) : p.loadExt.vm j = p.vm j := rfl
@[simp] theorem loadExt_vcpuState : p.loadExt.vcpuState = p.vcpuState := rfl
@[simp] theorem loadExt_pagePa : p.loadExt.pagePa = p.pagePa := rfl
@[simp] theorem entering_accept : p.entering.accept = p.accept := rfl
@[simp] theorem entering_gprs : p.entering.gprs = p.gprs := rfl
@[simp] theorem entering_event : p.entering.event = p.event := rfl
@[simp] theorem entering_veInfo : p.entering.veInfo = p.veInfo := rfl
@[simp] theorem entering_vcpuState : p.entering.vcpuState = p.vcpuState := rfl
@[simp] theorem entering_xcr0 : p.entering.xcr0 = p.xcr0 := rfl
@[simp] theorem injectException_gprs (n : Nat) (e : Option Word) : (injectException p n e).gprs = p.gprs := rfl
@[simp] theorem injectException_event (n : Nat) (e : Option Word) : (injectException p n e).event = some (n, e) := rfl
@[simp] theorem injectException_veInfo (n : Nat) (e : Option Word) : (injectException p n e).veInfo = p.veInfo := rfl
@[simp] theorem injectException_xcr0 (n : Nat) (e : Option Word) : (injectException p n e).xcr0 = p.xcr0 := rfl

/-- Entering the guest writes one TD VMCS field, the primary processor-based controls. -/
theorem entering_vm (j : Nat) (h : j ≠ Vmcs.procbased) : p.entering.vm j = p.vm j := by
  rw [Tdvps.entering, setVm_vm, if_neg (Ne.symm h)]
  rfl

end

/-! ## What TDH.VP.INIT leaves -/

theorem initialised_vmcs (v : Tdvps) (s : State) (t : Tdr) (c : Tdcs) (n : Nat) (x : Word) :
    (v.initialised s t c n x).vmcs =
      regSetAll [] (initGuestRegs ++ initGuestState ++ initControls s.plat c ++ initOther s.plat c n ++
        initAddresses s.plat t v.pagePa) := by
  simp only [Tdvps.initialised]

/-- A guest register of the TD VMCS after TDH.VP.INIT, when no later list names it. -/
theorem initialised_vm (v : Tdvps) (s : State) (t : Tdr) (c : Tdcs) (n : Nat) (x : Word) (f : Nat)
    (h : ∀ e ∈ initGuestState ++ (initControls s.plat c ++ (initOther s.plat c n ++ initAddresses s.plat t v.pagePa)),
      e.1 ≠ f) :
    (v.initialised s t c n x).vm f = regGet (regSetAll [] initGuestRegs) f := by
  rw [Tdvps.vm, initialised_vmcs, List.append_assoc, List.append_assoc, List.append_assoc, regSetAll_append,
    regGet_regSetAll_of_notMem _ _ _ h]

end Sys2Proof.Machine
end

