-- ==== Sys2Proof/Laws/Exit.lean ====
section
/-! SUPPORT. Logical processors after an update, an injected exception, a TD exit: everything each of the shared
operations can do, part by part (60_exceptions.md rules R700, R702, R710, R711). -/

namespace Sys2Proof.Machine

/-! ## Logical processors -/

theorem lpAt_modLpAt (s : State) (i j : Nat) (f : Lp → Lp) (h : i < s.lps.length) :
    (s.modLpAt i f).lpAt j = if i = j then f (s.lpAt j) else s.lpAt j := by
  by_cases hij : i = j
  · subst hij
    simp [State.modLpAt, State.lpAt, List.getD, h]
  · simp [State.modLpAt, State.lpAt, List.getD, hij]

theorem modLp_lp {s : State} (f : Lp → Lp) (h : s.curLp < s.lps.length) : (s.modLp f).lp = f s.lp := by
  have := lpAt_modLpAt s s.curLp s.curLp f h
  rw [if_pos rfl] at this
  exact this

theorem modLp_lp_of {s u : State} (f : Lp → Lp) (h : s.curLp < s.lps.length) (hc : u.curLp = s.curLp)
    (hl : u.lps = s.lps) : (u.modLp f).lp = f s.lp := by
  have hu : u.lp = s.lp := by rw [State.lp, State.lp, State.lpAt, State.lpAt, hc, hl]
  rw [modLp_lp f (by rw [hc, hl]; exact h), hu]

theorem modLp_lpAt_other {s : State} (f : Lp → Lp) {j : Nat} (h : j ≠ s.curLp) : (s.modLp f).lpAt j = s.lpAt j := by
  simp [State.modLp, State.modLpAt, State.lpAt, List.getD, Ne.symm h]

@[simp] theorem modLp_lps_length (s : State) (f : Lp → Lp) : (s.modLp f).lps.length = s.lps.length := by
  simp [State.modLp, State.modLpAt]

/-- SEAMRET: the calling logical processor afterwards. -/
theorem hostReturn_lp {s : State} (value details : Nat) (outs : List (Reg × Word)) (h : s.curLp < s.lps.length) :
    (hostReturn s value details outs).lp =
      { s.lp with gprs := (s.lp.gprs.setAll outs).set .rax (statusWord value details),
                  rip := s.lp.rip + w64 s.plat.seamcallLength } := modLp_lp _ h

/-! ## Tables of structures -/

theorem tblMod_id {α : Type} (t : Table α) (i : Nat) : tblMod t i (fun x => x) = t := by
  induction t with
  | nil => rfl
  | cons e t ih =>
    obtain ⟨k, w⟩ := e
    simp [tblMod, ih]

theorem modVp_get {s : State} {v : Nat} {p : Tdvps} (f : Tdvps → Tdvps) (h : tblGet s.vps v = some p) :
    tblGet (s.modVp v f).vps v = some (f p) := by simp [State.modVp, h]

theorem modVp_get_other (s : State) {v w : Nat} (f : Tdvps → Tdvps) (h : w ≠ v) :
    tblGet (s.modVp v f).vps w = tblGet s.vps w := by simp [State.modVp, tblGet_tblMod, Ne.symm h]

theorem modTdcs_get {s : State} {a : Nat} {c : Tdcs} (f : Tdcs → Tdcs) (h : tblGet s.tdcss a = some c) :
    tblGet (s.modTdcs a f).tdcss a = some (f c) := by simp [State.modTdcs, h]

theorem modTdr_get {s : State} {a : Nat} {t : Tdr} (f : Tdr → Tdr) (h : tblGet s.tdrs a = some t) :
    tblGet (s.modTdr a f).tdrs a = some (f t) := by simp [State.modTdr, h]

/-! ## Exceptions -/

/-- A VM exit whose structures can be read, with TDX enabled, is handled. -/
theorem serveExit_handled {s : State} {v : Nat} (u : State) (h : s.seamDisabled = false)
    (hr : structuresReadable s v = true) : serveExit s v u = u := by
  simp [serveExit, h, hr]

/-- The module injects an exception that no debugger intercepts: the VCPU alone changes. -/
theorem guestFault_injects {s : State} {v vector : Nat} {error : Option Word} (x : VmExit)
    (h : s.seamDisabled = false) (hr : structuresReadable s v = true) (hi : intercepted s v vector = false) :
    guestFault s v x vector error = s.modVp v fun p => (injectException (recordExit p x) vector error).entering := by
  rw [guestFault, serveExit_handled _ h hr, if_neg (by simp [hi])]

/-- RIP stays at the causing instruction. -/
theorem injected_rip (p : Tdvps) (x : VmExit) (vector : Nat) (error : Option Word) :
    ((injectException (recordExit p x) vector error).entering).vm Vmcs.rip = p.vm Vmcs.rip := by
  rw [entering_vm _ _ (by decide), injectException_vm _ _ _ _ (by decide), recordExit_vm _ _ _ (by decide)]

/-! ## Asynchronous TD exits -/

/-- What a TD exit does to the logical processor, the VCPU, the TD and the rest. -/
structure TdExitFrom (s t : State) (v : Nat) (p : Tdvps) (c : Tdcs) (x : VmExit) (cls : ExitClass) (q : Word) :
    Prop where
  lp : t.lp = { s.lp.afterExit c p.xfam with
    gprs := asyncExitGprs s.lp.gprs cls x q, rip := s.lp.rip + w64 s.plat.seamcallLength }
  vp : tblGet t.vps v = some (((recordExit p x).afterAsyncExit cls s.tsc).saveExt s.tick)
  otherVps : ∀ w, w ≠ v → tblGet t.vps w = tblGet s.vps w
  tdcs : tblGet t.tdcss (s.ownerOf v) = some (c.afterAsyncExit cls p.vcpuEpoch)
  tdrs : cls.tdScope = false → t.tdrs = s.tdrs
  locks : t.locks = releaseEntryLocks s.locks v (s.ownerOf v)
  rest : t = { s with lps := t.lps, vps := t.vps, tdcss := t.tdcss, tdrs := t.tdrs, locks := t.locks }

theorem asyncTdExit_from {s : State} {v : Nat} {p : Tdvps} {c : Tdcs} (x : VmExit) (cls : ExitClass) (q : Word)
    (hl : s.curLp < s.lps.length) (hv : tblGet s.vps v = some p) (hc : tblGet s.tdcss (s.ownerOf v) = some c)
    (hk : entryLocksHeld s.locks v (s.ownerOf v) = true) :
    TdExitFrom s (asyncTdExit s v x cls q) v p c x (exitClass s cls) q := by
  have e : asyncTdExit s v x cls q =
      ({ ((s.modVp v fun p => ((recordExit p x).afterAsyncExit (exitClass s cls) s.tsc).saveExt s.tick).modTdcs
            (s.ownerOf v) fun c => c.afterAsyncExit (exitClass s cls) p.vcpuEpoch).modTdr (s.ownerOf v)
            fun t => if (exitClass s cls).tdScope then { t with fatal := true } else t with
          locks := releaseEntryLocks s.locks v (s.ownerOf v) } : State).modLp fun l =>
        { l.afterExit c p.xfam with
          gprs := asyncExitGprs l.gprs (exitClass s cls) x q, rip := l.rip + w64 s.plat.seamcallLength } := by
    simp only [asyncTdExit, hv, hc, hk, if_true]
    rfl
  generalize exitClass s cls = k at e ⊢
  rw [e]
  clear e
  constructor
  · exact modLp_lp_of _ hl rfl rfl
  · exact modVp_get _ hv
  · exact fun w hw => modVp_get_other _ _ hw
  · exact modTdcs_get _ hc
  · intro h
    simp [State.modTdr, h, tblMod_id]
  · rfl
  · rfl

/-- Everything an asynchronous TD exit can do: it is made, or the module is fatally in error. -/
theorem asyncTdExit_frame (s : State) (v : Nat) (x : VmExit) (cls : ExitClass) (q : Word) :
    ∃ b l p c r k, asyncTdExit s v x cls q =
      { s with seamDisabled := b, lps := l, vps := p, tdcss := c, tdrs := r, locks := k } := by
  unfold asyncTdExit
  dsimp only
  split
  · split
    · exact ⟨_, _, _, _, _, _, rfl⟩
    · exact ⟨_, _, _, _, _, _, rfl⟩
  · exact ⟨_, _, _, _, _, _, rfl⟩

/-! ## Machine checks on several logical processors -/

/-- What a machine check on the listed logical processors leaves alone. -/
theorem broadcastExit_frame (x : VmExit) (is : List Nat) (s : State) :
    ∃ i b l p c r k, broadcastExit x s is =
      { s with curLp := i, seamDisabled := b, lps := l, vps := p, tdcss := c, tdrs := r, locks := k } := by
  induction is generalizing s with
  | nil => exact ⟨_, _, _, _, _, _, _, rfl⟩
  | cons i is ih =>
    unfold broadcastExit
    split
    · split
      · obtain ⟨i', b, l, p, c, r, k, h⟩ := ih (stopLp s i)
        exact ⟨i', b, l, p, c, r, k, h⟩
      · rename_i v _ _ _
        obtain ⟨i', b, l, p, c, r, k, h⟩ := ih (asyncTdExit { s with curLp := i } v x .nonRecoverableTdFatal 0)
        obtain ⟨b', l', p', c', r', k', h'⟩ := asyncTdExit_frame { s with curLp := i } v x .nonRecoverableTdFatal 0
        rw [h'] at h
        rw [h']
        exact ⟨i', b, l, p, c, r, k, h⟩
    · split
      · obtain ⟨i', b, l, p, c, r, k, h⟩ := ih (stopLp s i)
        exact ⟨i', b, l, p, c, r, k, h⟩
      · exact ih s
    · exact ih s

/-- What an unbreakable shutdown leaves alone: the current logical processor stays the current one. -/
theorem unbreakableShutdown_frame (s : State) :
    ∃ l p c r k, unbreakableShutdown s =
      { s with seamDisabled := true, lps := l, vps := p, tdcss := c, tdrs := r, locks := k } := by
  unfold unbreakableShutdown broadcastOthers
  split
  · exact ⟨_, _, _, _, _, rfl⟩
  · obtain ⟨i, b, l, p, c, r, k, h⟩ := broadcastExit_frame machineCheckExit.unlocked s.otherLps s
    rw [h]
    exact ⟨_, _, _, _, _, rfl⟩

section
variable (s : State)

@[simp] theorem unbreakableShutdown_seamDisabled : (unbreakableShutdown s).seamDisabled = true := rfl
@[simp] theorem unbreakableShutdown_plat : (unbreakableShutdown s).plat = s.plat := by
  obtain ⟨_, _, _, _, _, h⟩ := unbreakableShutdown_frame s; rw [h]
@[simp] theorem unbreakableShutdown_curLp : (unbreakableShutdown s).curLp = s.curLp := by
  obtain ⟨_, _, _, _, _, h⟩ := unbreakableShutdown_frame s; rw [h]
@[simp] theorem unbreakableShutdown_sysState : (unbreakableShutdown s).sysState = s.sysState := by
  obtain ⟨_, _, _, _, _, h⟩ := unbreakableShutdown_frame s; rw [h]
@[simp] theorem unbreakableShutdown_kot : (unbreakableShutdown s).kot = s.kot := by
  obtain ⟨_, _, _, _, _, h⟩ := unbreakableShutdown_frame s; rw [h]
@[simp] theorem unbreakableShutdown_ket : (unbreakableShutdown s).ket = s.ket := by
  obtain ⟨_, _, _, _, _, h⟩ := unbreakableShutdown_frame s; rw [h]
@[simp] theorem unbreakableShutdown_wbt : (unbreakableShutdown s).wbt = s.wbt := by
  obtain ⟨_, _, _, _, _, h⟩ := unbreakableShutdown_frame s; rw [h]
@[simp] theorem unbreakableShutdown_tdmrs : (unbreakableShutdown s).tdmrs = s.tdmrs := by
  obtain ⟨_, _, _, _, _, h⟩ := unbreakableShutdown_frame s; rw [h]
@[simp] theorem unbreakableShutdown_pamt4k : (unbreakableShutdown s).pamt4k = s.pamt4k := by
  obtain ⟨_, _, _, _, _, h⟩ := unbreakableShutdown_frame s; rw [h]
@[simp] theorem unbreakableShutdown_pamt2m : (unbreakableShutdown s).pamt2m = s.pamt2m := by
  obtain ⟨_, _, _, _, _, h⟩ := unbreakableShutdown_frame s; rw [h]
@[simp] theorem unbreakableShutdown_pamt1g : (unbreakableShutdown s).pamt1g = s.pamt1g := by
  obtain ⟨_, _, _, _, _, h⟩ := unbreakableShutdown_frame s; rw [h]
@[simp] theorem unbreakableShutdown_sept : (unbreakableShutdown s).sept = s.sept := by
  obtain ⟨_, _, _, _, _, h⟩ := unbreakableShutdown_frame s; rw [h]
@[simp] theorem unbreakableShutdown_mem : (unbreakableShutdown s).mem = s.mem := by
  obtain ⟨_, _, _, _, _, h⟩ := unbreakableShutdown_frame s; rw [h]
@[simp] theorem unbreakableShutdown_tsc : (unbreakableShutdown s).tsc = s.tsc := by
  obtain ⟨_, _, _, _, _, h⟩ := unbreakableShutdown_frame s; rw [h]
@[simp] theorem unbreakableShutdown_tick : (unbreakableShutdown s).tick = s.tick := by
  obtain ⟨_, _, _, _, _, h⟩ := unbreakableShutdown_frame s; rw [h]

end

/-! ## VM exits that are due before the next instruction -/

/-- Nothing is due when no monitor-trap-flag exit is pending and both windows are closed. -/
theorem boundaryExits_nil {p : Tdvps} :
    p.boundaryExits = [] ↔ p.mtfPending = false ∧ p.nmiWindowOpen = false ∧ p.intrWindowOpen = false := by
  cases h : p.mtfPending <;> cases h2 : p.nmiWindowOpen <;> cases h3 : p.intrWindowOpen <;>
    simp [Tdvps.boundaryExits, h, h2, h3]

/-- An instruction that completes makes the exit of a set monitor trap flag pending, and of a clear one not (R642). -/
theorem retire_mtfPending (p : Tdvps) :
    p.retire.mtfPending = bit (p.vm Vmcs.procbased) 27 := by
  show bit (regGet (regSet p.vmcs _ _) _) 27 = _
  rw [regGet_regSet, if_neg (by decide)]
  rfl

/-- A monitor-trap-flag exit that is pending is taken instead of the next guest operation (R642). -/
theorem guestStep_trap {s : State} {op : GuestOp} {v : Nat} {t : Tdr} {c : Tdcs} {p : Tdvps} (hl : lpStop s = none)
    (hr : runningGuest s = some (v, t, c, p)) (ha : p.accept = none) (hm : p.mtfPending = true) :
    guestStep s op = .next (unexpectedExit s v (VmExit.plain 37)) := by
  simp [guestStep, hl, hr, ha, Tdvps.boundaryExits, hm, takeBoundaryExit]

end Sys2Proof.Machine
end

