-- ==== Sys2Proof/Laws/Memory.lean ====
section
/-! SUPPORT. The laws of physical memory: every operation keeps the canonical form `Memory.wf`; what a byte reads as
after a write (20_memory.md rules R242, R247, R272, R275). -/

namespace Sys2Proof.Machine

/-! ## The canonical form, part by part -/

theorem memory_wf_iff (m : Memory) :
    m.wf = true ↔ tblWf m.cells = true ∧ (∀ c ∈ m.cells, c.2 ≠ 0) ∧ tblWf m.tags = true ∧
      tagsWf LineTag.initial m.tags = true ∧ tblWf m.cache = true := by
  simp only [Memory.wf, Bool.and_eq_true, List.all_eq_true, bne_iff_ne, and_assoc]

theorem mem_cellsOf {a : Nat} {bs : List Byte} {c : Host.Cell} (h : c ∈ cellsOf a bs) :
    a ≤ c.1 ∧ c.1 < a + bs.length ∧ c.2 ≠ 0 := by
  induction bs generalizing a with
  | nil => simp [cellsOf] at h
  | cons b bs ih =>
    unfold cellsOf at h
    split at h
    · have := ih h
      exact ⟨by omega, by simp only [List.length_cons]; omega, this.2.2⟩
    · rcases List.mem_cons.1 h with rfl | h
      · simp_all
      · have := ih h
        exact ⟨by omega, by simp only [List.length_cons]; omega, this.2.2⟩

theorem cellsOf_wf (a : Nat) (bs : List Byte) : tblWf (cellsOf a bs) = true := by
  rw [tblWf_iff]
  induction bs generalizing a with
  | nil => simp [cellsOf]
  | cons b bs ih =>
    unfold cellsOf
    split
    · exact ih _
    · exact List.pairwise_cons.2 ⟨fun c hc => (mem_cellsOf hc).1, ih _⟩

theorem writeCells_wf {cells : List Host.Cell} (a : Nat) (bs : List Byte) (h : tblWf cells = true)
    (hn : ∀ c ∈ cells, c.2 ≠ 0) :
    tblWf (writeCells cells a bs) = true ∧ ∀ c ∈ writeCells cells a bs, c.2 ≠ 0 := by
  refine ⟨tblWf_splice h (cellsOf_wf a bs) (Nat.le_add_right _ _) fun e he => ⟨(mem_cellsOf he).1, (mem_cellsOf he).2.1⟩, ?_⟩
  intro c hc
  simp only [writeCells, List.mem_append, List.mem_filter] at hc
  rcases hc with (hc | hc) | hc
  · exact hn c hc.1
  · exact (mem_cellsOf hc).2.2
  · exact hn c hc.1

theorem zeroCells_wf {cells : List Host.Cell} (a n : Nat) (h : tblWf cells = true) (hn : ∀ c ∈ cells, c.2 ≠ 0) :
    tblWf (zeroCells cells a n) = true ∧ ∀ c ∈ zeroCells cells a n, c.2 ≠ 0 :=
  ⟨tblWf_filter _ h, fun c hc => hn c (List.mem_filter.1 hc).1⟩

theorem normTags_sublist (cur : LineTag) (ts : Table LineTag) : (normTags cur ts).Sublist ts := by
  induction ts generalizing cur with
  | nil => exact List.Sublist.slnil
  | cons e ts ih =>
    obtain ⟨k, t⟩ := e
    unfold normTags
    split
    · exact (ih cur).cons _
    · exact (ih t).cons_cons _

theorem normTags_tagsWf (cur : LineTag) (ts : Table LineTag) : tagsWf cur (normTags cur ts) = true := by
  induction ts generalizing cur with
  | nil => rfl
  | cons e ts ih =>
    obtain ⟨k, t⟩ := e
    unfold normTags
    split
    · exact ih cur
    · rename_i h
      simp [tagsWf, h, ih]

theorem setTags_wf {tags : Table LineTag} (lo hi : Nat) (t : LineTag) (h : tblWf tags = true)
    (h2 : tagsWf LineTag.initial tags = true) :
    tblWf (setTags tags lo hi t) = true ∧ tagsWf LineTag.initial (setTags tags lo hi t) = true := by
  unfold setTags
  split
  · rename_i hlt
    refine ⟨tblWf_sublist (normTags_sublist _ _) ?_, normTags_tagsWf _ _⟩
    have := tblWf_splice (mid := [(lo, t), (hi, tagFrom LineTag.initial tags hi)]) (lo := lo) (hi := hi + 1) h
      (by simp [tblWf_iff, hlt]) (by omega) (by simp; omega)
    simpa [Nat.succ_le_iff] using this
  · exact ⟨h, h2⟩

/-! ## Every memory operation keeps the canonical form -/

theorem writeDirect_wf {s : State} (hkid a : Nat) (bs : List Byte) (h : s.mem.wf = true) :
    (writeDirect s hkid a bs).mem.wf = true := by
  rw [memory_wf_iff] at *
  have hc := writeCells_wf a bs h.1 h.2.1
  have ht := setTags_wf (a / 64) ((a + bs.length) / 64) (writeTag s hkid) h.2.2.1 h.2.2.2.1
  exact ⟨hc.1, hc.2, ht.1, ht.2, tblWf_filter _ h.2.2.2.2⟩

theorem zeroDirect_wf {s : State} (hkid a n : Nat) (h : s.mem.wf = true) :
    (zeroDirect s hkid a n).mem.wf = true := by
  rw [memory_wf_iff] at *
  have hc := zeroCells_wf a n h.1 h.2.1
  have ht := setTags_wf (a / 64) ((a + n) / 64) (writeTag s hkid) h.2.2.1 h.2.2.2.1
  exact ⟨hc.1, hc.2, ht.1, ht.2, tblWf_filter _ h.2.2.2.2⟩

theorem writeBack_wf {s : State} (pkg hkid line : Nat) (bs : List Byte) (h : s.mem.wf = true) :
    (writeBack s pkg hkid line bs).mem.wf = true := by
  rw [memory_wf_iff] at *
  have hc := writeCells_wf (line * 64) bs h.1 h.2.1
  have ht := setTags_wf line (line + 1) (writeTagAt s pkg hkid) h.2.2.1 h.2.2.2.1
  exact ⟨hc.1, hc.2, ht.1, ht.2, h.2.2.2.2⟩

/-- A memory whose cache alone has been replaced by a canonical one. -/
theorem wf_setCache {m : Memory} {c : Table CacheEntry} (h : m.wf = true) (hc : tblWf c = true) :
    ({ m with cache := c } : Memory).wf = true := by
  rw [memory_wf_iff] at *
  exact ⟨h.1, h.2.1, h.2.2.1, h.2.2.2.1, hc⟩

theorem memory_wf_cache {m : Memory} (h : m.wf = true) : tblWf m.cache = true := ((memory_wf_iff m).1 h).2.2.2.2

theorem cacheWrites_wf (s : State) (hkid a : Nat) (bs : List Byte) (ls : List Nat) {c : Table CacheEntry}
    (h : tblWf c = true) : tblWf (cacheWrites s hkid a bs ls c) = true := by
  induction ls generalizing c with
  | nil => exact h
  | cons l ls ih => exact ih (tblWf_tblSet _ _ h)

theorem writeCached_wf {s : State} (hkid a : Nat) (bs : List Byte) (h : s.mem.wf = true) :
    (writeCached s hkid a bs).mem.wf = true :=
  wf_setCache h (cacheWrites_wf s hkid a bs _ (memory_wf_cache h))

theorem evict_wf {s : State} (line hkid : Nat) (h : s.mem.wf = true) : (evict s line hkid).mem.wf = true := by
  unfold evict
  split
  · exact h
  · have h1 : ∀ s1 : State, s1.mem.wf = true →
        ({ s1 with mem := { s1.mem with cache := tblDel s1.mem.cache (cacheKey line hkid) } } : State).mem.wf = true :=
      fun s1 h1 => wf_setCache h1 (tblWf_tblDel _ (memory_wf_cache h1))
    dsimp only
    split
    · exact h1 _ (writeBack_wf _ _ _ _ h)
    · exact h1 _ h

theorem cleanEntries_wf {s : State} (es : List (Nat × CacheEntry)) (h : s.mem.wf = true) :
    (cleanEntries s es).mem.wf = true := by
  induction es generalizing s with
  | nil => exact h
  | cons e es ih =>
    obtain ⟨k, e⟩ := e
    unfold cleanEntries
    split
    · have h1 := writeBack_wf (s.plat.scopePkg e.scope) (k % 65536) (k / 65536) e.data h
      exact ih (wf_setCache h1 (tblWf_tblSet _ _ (memory_wf_cache h1)))
    · exact ih h

theorem flushEntries_wf {s : State} (es : List (Nat × CacheEntry)) (h : s.mem.wf = true) :
    (flushEntries s es).mem.wf = true := by
  induction es generalizing s with
  | nil => exact h
  | cons e es ih =>
    obtain ⟨k, e⟩ := e
    exact ih (evict_wf _ _ h)

theorem fillLine_wf {s t : State} (line hkid : Nat) (h : s.mem.wf = true) (ht : fillLine s line hkid = some t) :
    t.mem.wf = true := by
  unfold fillLine at ht
  split at ht
  · cases ht
  · cases ht
    exact wf_setCache h (tblWf_tblSet _ _ (memory_wf_cache h))

theorem corruptLine_wf {s : State} (line : Nat) (h : s.mem.wf = true) : (corruptLine s line).mem.wf = true := by
  rw [memory_wf_iff] at *
  have ht := setTags_wf line (line + 1) { tagAt s.mem line with bad := true } h.2.2.1 h.2.2.2.1
  exact ⟨h.1, h.2.1, ht.1, ht.2, h.2.2.2.2⟩

theorem storeLines_wf {s : State} (hkid : Nat) (ls : List (Nat × List Byte)) (h : s.mem.wf = true) :
    (storeLines s hkid ls).mem.wf = true := by
  induction ls generalizing s with
  | nil => exact h
  | cons e ls ih => exact ih (writeBack_wf s.pkg hkid e.1 e.2 h)

theorem writeUncached_wf {s : State} (hkid a : Nat) (bs : List Byte) (h : s.mem.wf = true) :
    (writeUncached s hkid a bs).mem.wf = true := storeLines_wf _ _ h

theorem writeDma_wf {s : State} (hkid a : Nat) (bs : List Byte) (h : s.mem.wf = true) :
    (writeDma s hkid a bs).mem.wf = true := by
  have h1 := storeLines_wf hkid ((linesOf a bs.length).map fun l => (l, mergedLine s hkid l a bs)) h
  exact wf_setCache h1 (tblWf_filter _ (memory_wf_cache h1))

theorem writeTyped_wf {s : State} (uc : Bool) (hkid a : Nat) (bs : List Byte) (h : s.mem.wf = true) :
    (writeTyped s uc hkid a bs).mem.wf = true := by
  unfold writeTyped
  split
  · exact writeUncached_wf _ _ _ h
  · exact writeCached_wf _ _ _ h

/-- The record of possibly modified lines is no part of the canonical form. -/
theorem wf_setStale {m : Memory} (l : List StaleRange) (h : m.wf = true) : ({ m with stale := l } : Memory).wf = true :=
  h

theorem writeBackStale_wf {s : State} (pkg hkid : Nat) (ls : List Nat) (h : s.mem.wf = true) :
    (writeBackStale s pkg hkid ls).mem.wf = true := by
  induction ls generalizing s with
  | nil => exact h
  | cons l ls ih =>
    unfold writeBackStale
    split
    · exact ih (writeBack_wf _ _ _ _ h)
    · exact ih h

theorem flushStaleScope_wf {s : State} (scope : Nat) (rs : List StaleRange) (h : s.mem.wf = true) :
    (flushStaleScope s scope rs).mem.wf = true := by
  induction rs generalizing s with
  | nil => exact h
  | cons r rs ih =>
    unfold flushStaleScope
    split
    · exact ih (writeBackStale_wf _ _ _ h)
    · exact ih h

theorem flushStale_wf {s : State} (scope : Nat) (h : s.mem.wf = true) : (flushStale s scope).mem.wf = true :=
  wf_setStale _ (flushStaleScope_wf scope _ h)

theorem flushStaleLines_wf {s : State} (hkid : Nat) (ls : List Nat) (h : s.mem.wf = true) :
    (flushStaleLines s hkid ls).mem.wf = true := by
  induction ls generalizing s with
  | nil => exact h
  | cons l ls ih =>
    unfold flushStaleLines
    split
    · exact ih (wf_setStale _ (writeBackStale_wf _ _ _ h))
    · exact ih h

theorem evictStale_wf {s t : State} (line hkid : Nat) (h : s.mem.wf = true) (ht : evictStale s line hkid = some t) :
    t.mem.wf = true := by
  unfold evictStale at ht
  split at ht
  · cases ht
    exact wf_setStale _ (writeBack_wf _ _ _ _ h)
  · cases ht

theorem moduleStore_wf {s t : State} (line hkid scope : Nat) (h : s.mem.wf = true)
    (ht : moduleStore s line hkid scope = some t) : t.mem.wf = true := by
  unfold moduleStore at ht
  split at ht
  · cases ht
    exact wf_setCache h (tblWf_tblSet _ _ (memory_wf_cache h))
  · cases ht

theorem addStale_wf {s : State} (a n hkid : Nat) (h : s.mem.wf = true) : (s.addStale a n hkid).mem.wf = true :=
  wf_setStale _ h

theorem freePage_wf {s : State} (a level : Nat) (h : s.mem.wf = true) : (s.freePage a level).mem.wf = true := by
  unfold State.freePage
  split
  · rw [State.setPamt_mem]
    exact addStale_wf _ _ _ h
  · rw [State.setPamt_mem]
    exact h

theorem freePages_wf {s : State} (a level n : Nat) (h : s.mem.wf = true) : (freePages s a level n).mem.wf = true := by
  induction n with
  | zero => exact h
  | succ n ih => exact freePage_wf _ _ ih

/-- Memory with nothing listed, as after reset. -/
theorem memory_empty_wf : (⟨[], [], [], []⟩ : Memory).wf = true := by decide

theorem reset_memory_wf : State.reset.mem.wf = true := by decide

/-! ## What the recursive operations leave alone -/

section
variable (s : State)

theorem evict_frame (line hkid : Nat) : ∃ m, evict s line hkid = { s with mem := m } := by
  unfold evict
  split
  · exact ⟨s.mem, rfl⟩
  · dsimp only
    split <;> exact ⟨_, rfl⟩

theorem cleanEntries_frame (es : List (Nat × CacheEntry)) : ∃ m, cleanEntries s es = { s with mem := m } := by
  induction es generalizing s with
  | nil => exact ⟨s.mem, rfl⟩
  | cons e es ih =>
    obtain ⟨k, e⟩ := e
    unfold cleanEntries
    split
    · obtain ⟨m, hm⟩ := ih { s with mem :=
        { (writeBack s (s.plat.scopePkg e.scope) (k % 65536) (k / 65536) e.data).mem with
          cache := tblSet s.mem.cache k { e with modified := false } } }
      exact ⟨m, hm⟩
    · exact ih s

theorem flushEntries_frame (es : List (Nat × CacheEntry)) : ∃ m, flushEntries s es = { s with mem := m } := by
  induction es generalizing s with
  | nil => exact ⟨s.mem, rfl⟩
  | cons e es ih =>
    obtain ⟨k, e⟩ := e
    obtain ⟨m, hm⟩ := evict_frame s (k / 65536) (k % 65536)
    obtain ⟨m', hm'⟩ := ih (evict s (k / 65536) (k % 65536))
    exact ⟨m', by unfold flushEntries; rw [hm', hm]⟩

theorem writeBackStale_frame (pkg hkid : Nat) (ls : List Nat) :
    ∃ m, writeBackStale s pkg hkid ls = { s with mem := m } := by
  induction ls generalizing s with
  | nil => exact ⟨s.mem, rfl⟩
  | cons l ls ih =>
    unfold writeBackStale
    split
    · obtain ⟨m, hm⟩ := ih (writeBack s pkg hkid l (moduleLine s l))
      exact ⟨m, hm⟩
    · exact ih s

theorem flushStaleScope_frame (scope : Nat) (rs : List StaleRange) :
    ∃ m, flushStaleScope s scope rs = { s with mem := m } := by
  induction rs generalizing s with
  | nil => exact ⟨s.mem, rfl⟩
  | cons r rs ih =>
    unfold flushStaleScope
    split
    · obtain ⟨m, hm⟩ := writeBackStale_frame s (s.plat.scopePkg scope) r.hkid (linesOf r.base r.size)
      obtain ⟨m', hm'⟩ := ih (writeBackStale s (s.plat.scopePkg scope) r.hkid (linesOf r.base r.size))
      exact ⟨m', by rw [hm', hm]⟩
    · exact ih s

theorem flushStale_frame (scope : Nat) : ∃ m, flushStale s scope = { s with mem := m } := by
  obtain ⟨m, hm⟩ := flushStaleScope_frame s scope s.mem.stale
  exact ⟨_, by unfold flushStale; rw [hm]⟩

theorem flushStaleLines_frame (hkid : Nat) (ls : List Nat) :
    ∃ m, flushStaleLines s hkid ls = { s with mem := m } := by
  induction ls generalizing s with
  | nil => exact ⟨s.mem, rfl⟩
  | cons l ls ih =>
    unfold flushStaleLines
    split
    · rename_i scope _
      obtain ⟨m, hm⟩ := writeBackStale_frame s (s.plat.scopePkg scope) hkid [l]
      dsimp only
      rw [hm]
      obtain ⟨m', hm'⟩ := ih { s with mem := { m with stale := cutStale m.stale (l * 64) 64 hkid } }
      exact ⟨m', hm'⟩
    · exact ih s

end

/-! ## Cells and tags after a write -/

theorem cellAt_eq (m : Memory) (a : Nat) : cellAt m a = (tblGet m.cells a).getD 0 := rfl

theorem tblGet_filter {α : Type} (t : Table α) (p : Nat → Bool) (i : Nat) :
    tblGet (t.filter fun e => p e.1) i = if p i then tblGet t i else none := by
  induction t with
  | nil => simp [tblGet]
  | cons e t ih =>
    obtain ⟨k, w⟩ := e
    by_cases hk : p k <;> by_cases h : k = i <;> simp_all [tblGet]

theorem tblGet_append {α : Type} (t u : Table α) (i : Nat) : tblGet (t ++ u) i = (tblGet t i).or (tblGet u i) := by
  induction t with
  | nil => simp [tblGet]
  | cons e t ih =>
    obtain ⟨k, w⟩ := e
    by_cases h : k = i <;> simp_all [tblGet]

theorem tblGet_cellsOf (a : Nat) (bs : List Byte) (x : Nat) :
    (tblGet (cellsOf a bs) x).getD 0 = if a ≤ x ∧ x < a + bs.length then bs.getD (x - a) 0 else 0 := by
  induction bs generalizing a with
  | nil => simp [cellsOf, tblGet]
  | cons b bs ih =>
    unfold cellsOf
    by_cases hx : x = a
    · subst hx
      have h0 : (tblGet (cellsOf (x + 1) bs) x).getD 0 = (0 : Byte) := by rw [ih]; simp
      split
      · rename_i hb; rw [h0]; simp [hb]
      · simp [tblGet]
    · have hs : (a ≤ x ∧ x < a + (b :: bs).length) ↔ (a + 1 ≤ x ∧ x < a + 1 + bs.length) := by
        simp only [List.length_cons]; omega
      have hg : (a + 1 ≤ x) → (b :: bs).getD (x - a) 0 = bs.getD (x - (a + 1)) 0 := by
        intro h
        obtain ⟨k, rfl⟩ : ∃ k, x = a + 1 + k := ⟨x - (a + 1), by omega⟩
        have e1 : a + 1 + k - a = k + 1 := by omega
        have e2 : a + 1 + k - (a + 1) = k := by omega
        rw [e1, e2, List.getD_cons_succ]
      have key : (tblGet (cellsOf (a + 1) bs) x).getD 0 =
          if a ≤ x ∧ x < a + (b :: bs).length then (b :: bs).getD (x - a) 0 else 0 := by
        rw [ih]
        by_cases hc : a + 1 ≤ x ∧ x < a + 1 + bs.length
        · rw [if_pos hc, if_pos (hs.2 hc), hg hc.1]
        · rw [if_neg hc, if_neg (fun h => hc (hs.1 h))]
      split
      · exact key
      · simp only [tblGet]
        rw [if_neg (fun h => hx h.symm)]
        exact key

/-- The byte at an address after bytes have been written. -/
theorem cellAt_writeCells (m : Memory) (tags : Table LineTag) (cache : Table CacheEntry) (stale : List StaleRange)
    (a : Nat) (bs : List Byte) (x : Nat) :
    cellAt ⟨writeCells m.cells a bs, tags, cache, stale⟩ x =
      if a ≤ x ∧ x < a + bs.length then bs.getD (x - a) 0 else cellAt m x := by
  have hlow : ∀ i, tblGet (m.cells.filter fun c => decide (c.1 < a)) i = if i < a then tblGet m.cells i else none := by
    intro i
    have := tblGet_filter m.cells (fun k => decide (k < a)) i
    simpa using this
  have hhigh : ∀ i, tblGet (m.cells.filter fun c => decide (a + bs.length ≤ c.1)) i =
      if a + bs.length ≤ i then tblGet m.cells i else none := by
    intro i
    have := tblGet_filter m.cells (fun k => decide (a + bs.length ≤ k)) i
    simpa using this
  simp only [cellAt, writeCells, tblGet_append, hlow, hhigh]
  have hc := tblGet_cellsOf a bs x
  by_cases h1 : x < a
  · have hn : tblGet (cellsOf a bs) x = none :=
      tblGet_eq_none fun b hb => by have := (mem_cellsOf hb).1; simp only at this; omega
    rw [if_pos h1, hn, if_neg (by omega), if_neg (by omega)]
    simp
  · by_cases h2 : a + bs.length ≤ x
    · have hn : tblGet (cellsOf a bs) x = none :=
        tblGet_eq_none fun b hb => by have := (mem_cellsOf hb).2.1; simp only at this; omega
      rw [if_neg h1, hn, if_pos h2, if_neg (by omega)]
      simp
    · rw [if_neg h1, if_neg h2, if_pos (by omega)]
      rw [if_pos (by omega)] at hc
      simpa using hc

end Sys2Proof.Machine
end

