-- ==== Sys2Proof/Laws/Reads.lean ====
section
/-! SUPPORT. What a read depends on: two states with the same memory, keys, platform, current logical processor and
step counter read alike, walk the EPTs alike and judge poison alike (20_memory.md rules R270, R272; 21_secure_ept.md
rules R257, R261, R265). -/

namespace Sys2Proof.Machine

/-- Two states between which no read can tell. -/
structure SameReads (s t : State) : Prop where
  mem : t.mem = s.mem
  ket : t.ket = s.ket
  plat : t.plat = s.plat
  curLp : t.curLp = s.curLp
  tick : t.tick = s.tick

namespace SameReads

variable {s t : State}

theorem refl (s : State) : SameReads s s := ⟨rfl, rfl, rfl, rfl, rfl⟩

theorem trans {u : State} (h : SameReads s t) (k : SameReads t u) : SameReads s u :=
  ⟨k.mem.trans h.mem, k.ket.trans h.ket, k.plat.trans h.plat, k.curLp.trans h.curLp, k.tick.trans h.tick⟩

theorem keyOf (h : SameReads s t) (k : Nat) : Machine.keyOf t k = Machine.keyOf s k := by
  simp only [Machine.keyOf, ketAt, State.pkg, h.ket, h.plat, h.curLp]

theorem lineView (h : SameReads s t) (k l : Nat) : Machine.lineView t k l = Machine.lineView s k l := by
  simp only [Machine.lineView, h.keyOf, h.mem, h.plat]

theorem memPoison (h : SameReads s t) (k l : Nat) : Machine.memPoison t k l = Machine.memPoison s k l := by
  simp only [Machine.memPoison, h.lineView]

theorem linePoison (h : SameReads s t) (k l : Nat) : Machine.linePoison t k l = Machine.linePoison s k l := by
  simp only [Machine.linePoison, h.memPoison, h.mem]

theorem memByte (h : SameReads s t) (k a : Nat) : Machine.memByte t k a = Machine.memByte s k a := by
  simp only [Machine.memByte, h.lineView, h.mem, h.tick]

theorem poisoned (h : SameReads s t) (k a n : Nat) : Machine.poisoned t k a n = Machine.poisoned s k a n := by
  simp only [Machine.poisoned, h.linePoison]

theorem pageReadable (h : SameReads s t) (k a : Nat) : Machine.pageReadable t k a = Machine.pageReadable s k a := by
  simp only [Machine.pageReadable, h.poisoned]

theorem readByte (h : SameReads s t) (k a : Nat) : Machine.readByte t k a = Machine.readByte s k a := by
  simp only [Machine.readByte, h.memByte, h.mem]

theorem readBytes (h : SameReads s t) (k a n : Nat) : Machine.readBytes t k a n = Machine.readBytes s k a n := by
  simp only [Machine.readBytes, h.readByte]

theorem read64 (h : SameReads s t) (k a : Nat) : Machine.read64 t k a = Machine.read64 s k a := by
  simp only [Machine.read64, h.readBytes]

theorem readTyped (h : SameReads s t) (uc : Bool) (k a n : Nat) :
    Machine.readTyped t uc k a n = Machine.readTyped s uc k a n := by
  simp only [Machine.readTyped, h.memByte, h.readBytes]

theorem poisonedTyped (h : SameReads s t) (uc : Bool) (k a n : Nat) :
    Machine.poisonedTyped t uc k a n = Machine.poisonedTyped s uc k a n := by
  simp only [Machine.poisonedTyped, h.memPoison, h.poisoned]

/-- The PAMT entries of a page, in two states with the same TDMRs. -/
theorem pamtReadable (h : SameReads s t) (ht : t.tdmrs = s.tdmrs) (hg : t.globalHkid = s.globalHkid) (a : Nat) :
    Machine.pamtReadable t a = Machine.pamtReadable s a := by
  simp only [Machine.pamtReadable, tdmrOf, ht, hg, h.poisoned, pamtEntryAddr, h.plat]

theorem sharedEntryBad (h : SameReads s t) (a : Nat) : Machine.sharedEntryBad t a = Machine.sharedEntryBad s a := by
  simp only [Machine.sharedEntryBad, h.poisoned, h.plat]

theorem walkFrom (h : SameReads s t) (hs : t.sept = s.sept) (k gpa : Nat) (target : Option Nat) (page n : Nat) :
    Machine.walkFrom t k gpa target page n = Machine.walkFrom s k gpa target page n := by
  induction n generalizing page with
  | zero => simp only [Machine.walkFrom, septAt, hs, h.linePoison]
  | succ n ih =>
    simp only [Machine.walkFrom, septAt, hs, h.linePoison, ih]
    rfl

theorem septWalk (h : SameReads s t) (hs : t.sept = s.sept) (c : Tdcs) (k gpa : Nat) (target : Option Nat) :
    Machine.septWalk t c k gpa target = Machine.septWalk s c k gpa target := h.walkFrom hs _ _ _ _ _

theorem sharedWalkFrom (h : SameReads s t) (gpa : Nat) (kind : AccessKind) (table : Nat) (perms : Word) (n : Nat) :
    Machine.sharedWalkFrom t gpa kind table perms n = Machine.sharedWalkFrom s gpa kind table perms n := by
  induction n generalizing table perms with
  | zero => simp only [Machine.sharedWalkFrom, sharedLeaf, h.sharedEntryBad, h.read64, h.plat]
  | succ n ih => simp only [Machine.sharedWalkFrom, sharedLeaf, h.sharedEntryBad, h.read64, h.plat, ih]

theorem privateWalk (h : SameReads s t) (hs : t.sept = s.sept) (c : Tdcs) (k gpa : Nat) :
    Machine.privateWalk t c k gpa = Machine.privateWalk s c k gpa := by
  simp only [Machine.privateWalk, h.septWalk hs]

/-- A guest operand translates alike for two images of a VCPU with the same Shared EPT. -/
theorem guestGpa (h : SameReads s t) (hs : t.sept = s.sept) (r : Tdr) (c : Tdcs) {p q : Tdvps}
    (hp : q.vm Vmcs.sharedEptp = p.vm Vmcs.sharedEptp) (gpa : Nat) (kind : AccessKind) :
    Machine.guestGpa t r c q gpa kind = Machine.guestGpa s r c p gpa kind := by
  simp only [Machine.guestGpa, h.privateWalk hs, Machine.sharedWalk, h.sharedWalkFrom, hp]

/-- A guest operand reads alike. -/
theorem guestRead (h : SameReads s t) (o : GuestOperand) (n : Nat) :
    Machine.guestRead t o n = Machine.guestRead s o n := by
  simp only [Machine.guestRead, h.poisonedTyped, h.readTyped, h.plat]

end SameReads

/-- A walk that ends at an entry has read its line, which holds no poison. -/
theorem walkFrom_ok_clean {s : State} {k gpa : Nat} {target : Option Nat} {page n : Nat} {p : SeptPos}
    (h : walkFrom s k gpa target page n = .ok p) : linePoison s k (p.addr / 64) = false := by
  induction n generalizing page with
  | zero =>
    simp only [walkFrom] at h
    split at h
    · cases h
    · rename_i hl
      split at h <;> cases h
      simpa using hl
  | succ n ih =>
    simp only [walkFrom] at h
    split at h
    · cases h
    · rename_i hl
      split at h
      · cases h
        simpa using hl
      · split at h
        · cases h
          simpa using hl
        · split at h
          · cases h
          · exact ih h

/-- The line of the entry that a Secure EPT walk finds holds no poison (R261, R271). -/
theorem septWalk_ok_clean {s : State} {c : Tdcs} {k gpa : Nat} {target : Option Nat} {p : SeptPos}
    (h : septWalk s c k gpa target = .ok p) : linePoison s k (p.addr / 64) = false := walkFrom_ok_clean h

end Sys2Proof.Machine
end

