-- ==== Sys2Proof/Laws/Guest.lean ====
section
/-! SUPPORT. What the shared operations of the guest-side functions can do: how a sequence of checks goes on, the opening
of a function, its locks, its memory operands, and how TDCALL ends (30_encoding.md rule R328; 44_tdcall.md). -/

namespace Sys2Proof.Machine

open Safety

/-! ## Sequencing -/

@[simp] theorem greq_true (a : GuestAbort) : greq true a = .ok () := rfl

@[simp] theorem greq_false (a : GuestAbort) : greq false a = .error a := rfl

@[simp] theorem gOr_some {α : Type} (x : α) (a : GuestAbort) : gOr (some x) a = .ok x := rfl

@[simp] theorem gOr_none {α : Type} (a : GuestAbort) : gOr (none : Option α) a = .error a := rfl

@[simp] theorem gWithOuts_ok {α : Type} (outs : List (Reg × Word)) (x : α) : gWithOuts outs (.ok x) = .ok x := rfl

theorem greq_eq_ok {c : Bool} {a : GuestAbort} {u : Unit} : greq c a = .ok u ↔ c = true := by
  cases c <;> simp [greq]

theorem gOr_eq_ok {α : Type} {o : Option α} {a : GuestAbort} {x : α} : gOr o a = .ok x ↔ o = some x := by
  cases o <;> simp [gOr]

/-! ## The opening of a guest-side function -/

theorem tdcallEntered_reads (s : State) (v : Nat) : SameReads s (s.tdcallEntered v) := ⟨rfl, rfl, rfl, rfl, rfl⟩

/-- The tests of R271 that come with every VM exit of a running guest. -/
theorem structuresReadable_pages {s : State} {v td : Nat} {t : Tdr} {c : Tdcs} {p : Tdvps}
    (h : RunsGuest s v td t c p) :
    (t.tdcxPa.all fun a => pageReadable s t.hkid a) = true ∧ (p.pagePa.all fun a => pageReadable s t.hkid a) = true := by
  obtain ⟨_, _, _, _, h5, h6, h7, _, h9⟩ := h
  rw [structuresReadable, h6] at h9
  simp only [h5, h7, Bool.and_eq_true] at h9
  exact ⟨h9.1.1.1.2, h9.1.1.2⟩

/-- The VCPU, its TD and the TD's structures, after the VM exit has been recorded. -/
theorem openGuest_ok {s : State} {v td : Nat} {t : Tdr} {c : Tdcs} {p : Tdvps} (h : RunsGuest s v td t c p) :
    openGuest (s.tdcallEntered v) v = .ok (td, t, c, recordExit p tdcallExit) := by
  obtain ⟨hp, hq⟩ := structuresReadable_pages h
  obtain ⟨_, _, _, _, h5, h6, h7, h8, _⟩ := h
  have e1 : tblGet (s.tdcallEntered v).vps v = some (recordExit p tdcallExit) := by
    rw [State.tdcallEntered, State.modVp, tblGet_tblMod_self, h5]
    rfl
  have e2 : (s.tdcallEntered v).ownerOf v = td := h6
  have hr : (fun a => pageReadable (s.tdcallEntered v) t.hkid a) = fun a => pageReadable s t.hkid a :=
    funext fun a => (tdcallEntered_reads s v).pageReadable _ _
  simp only [openGuest, e1, e2, gOr_some, bind, Except.bind, State.tdcallEntered_tdrs, State.tdcallEntered_tdcss, h7,
    h8, hr, hp, recordExit_pagePa, hq, Bool.and_self, greq_true, pure, Except.pure]

/-- How TDCALL ends: the function's answer, completed. -/
theorem guestCall_finish {s : State} {v td : Nat} {t : Tdr} {c : Tdcs} {p : Tdvps} {body : State → Nat → GFn State}
    (h : GuestCalls s v td t c p) :
    guestCall body s = .next (finishGuest (s.tdcallEntered v) v (body (s.tdcallEntered v) v)) := by
  obtain ⟨⟨h1, h2, h3, h4, h5, _, _, _, h9⟩, h10⟩ := h
  simp [guestCall, guestTdcall, lpStop, Nat.not_le.2 h1, h2, h3, h5, serveExit, h4, h9, tdcallFrom, h10]

theorem guestCall_ok {s u : State} {v td : Nat} {t : Tdr} {c : Tdcs} {p : Tdvps} {body : State → Nat → GFn State}
    (h : GuestCalls s v td t c p) (hb : body (s.tdcallEntered v) v = .ok u) : guestCall body s = .next u := by
  rw [guestCall_finish h, hb]
  rfl

/-- A guest-side function that fails completes with its status. -/
theorem guestCall_status {s : State} {v td : Nat} {t : Tdr} {c : Tdcs} {p : Tdvps} {body : State → Nat → GFn State}
    {a d : Nat} {outs : List (Reg × Word)} (h : GuestCalls s v td t c p)
    (hb : body (s.tdcallEntered v) v = .error (.status a d outs)) :
    guestCall body s = .next (guestReturn (s.tdcallEntered v) v a d outs) := by
  rw [guestCall_finish h, hb]
  rfl

/-! ## Locks and operands -/

theorem guestLock_free {s : State} {id : LockId} (m : LockMode) (n : Nat) (h : lockState s.locks id = none) :
    guestLock s id m n = .ok () := by
  cases m <;> simp [guestLock, acquire, h, gOr, bind, Except.bind, pure, Except.pure]

theorem guestLock_shared {s : State} {id : LockId} (n : Nat) (h : lockState s.locks id ≠ some .exclusive) :
    guestLock s id .shared n = .ok () := by
  cases hs : lockState s.locks id with
  | none => exact guestLock_free _ _ hs
  | some st =>
    cases st with
    | exclusive => exact absurd hs h
    | shared k => simp [guestLock, acquire, hs, gOr, bind, Except.bind, pure, Except.pure]

/-- The VM exit of TDCALL does not change how an operand translates. -/
theorem guestGpa_entered (s : State) (v : Nat) (t : Tdr) (c : Tdcs) (p : Tdvps) (gpa : Nat) (kind : AccessKind) :
    guestGpa (s.tdcallEntered v) t c (recordExit p tdcallExit) gpa kind = guestGpa s t c p gpa kind :=
  (tdcallEntered_reads s v).guestGpa rfl t c (recordExit_vm _ _ _ (by decide)) gpa kind

/-- A private operand that is mapped present. -/
theorem guestGpa_private {s : State} {t : Tdr} {c : Tdcs} {p : Tdvps} {gpa a level : Nat} (kind : AccessKind)
    (h : c.privateGpa gpa = true) (hw : privateWalk s c t.hkid gpa = .ok a level) :
    guestGpa s t c p gpa kind = .ok ⟨a, t.hkid, false⟩ := by
  simp only [guestGpa, h, hw, if_true]

/-- A private operand is read through the caches. -/
theorem guestRead_private {s : State} {hkid a n : Nat} (hk : isPrivateHkid s.plat hkid = true)
    (h : poisoned s hkid a n = false) : guestRead s ⟨a, hkid, false⟩ n = .ok (readBytes s hkid a n) := by
  simp [guestRead, effectiveUc, guestBacked, poisonedTyped, readTyped, hk, h, bind, Except.bind, pure, Except.pure]

/-- A private operand is written through the caches. -/
theorem guestWrite_private {s : State} {hkid a : Nat} (bs : List Byte) (hk : isPrivateHkid s.plat hkid = true) :
    guestWrite s ⟨a, hkid, false⟩ bs = writeCached s hkid a bs := by
  simp [guestWrite, effectiveUc, writeTyped, hk]

/-- The VM exit of TDCALL does not change what an operand reads as. -/
theorem guestRead_entered (s : State) (v : Nat) (o : GuestOperand) (n : Nat) :
    guestRead (s.tdcallEntered v) o n = guestRead s o n := (tdcallEntered_reads s v).guestRead o n

end Sys2Proof.Machine
end

