-- ==== Sys2Proof/Laws/Ops.lean ====
section
/-! SUPPORT. What the shared operations of the host-side functions can do: how a sequence of checks goes on, the locks,
CheckHpa, CheckTD, the opening of each group of functions, the association of a VCPU, and how SEAMCALL ends (30_encoding.md rules R321 to R327;
20_memory.md rules R245, R246, R251). -/

namespace Sys2Proof.Machine

open Safety

/-! ## Sequencing -/

/-- A function whose first part answers goes on with that answer. -/
@[simp] theorem answer_goesOn {α β : Type} (a : α) (next : α → Fn β) :
    (do let r ← (Except.ok a : Fn α); next r) = next a := rfl

/-- A function whose first part aborts aborts. -/
@[simp] theorem abort_stops {α β : Type} (why : HostAbort) (next : α → Fn β) :
    (do let r ← (Except.error why : Fn α); next r) = Except.error why := rfl

@[simp] theorem pure_answers {α : Type} (a : α) : (pure a : Fn α) = Except.ok a := rfl

@[simp] theorem req_true (a : HostAbort) : req true a = .ok () := rfl

@[simp] theorem req_false (a : HostAbort) : req false a = .error a := rfl

theorem req_ok {c : Bool} {a : HostAbort} (h : c = true) : req c a = .ok () := by rw [h]; rfl

@[simp] theorem getOr_some {α : Type} (x : α) (a : HostAbort) : getOr (some x) a = .ok x := rfl

@[simp] theorem getOr_none {α : Type} (a : HostAbort) : getOr (none : Option α) a = .error a := rfl

@[simp] theorem withOuts_ok (outs : List (Reg × Word)) (s : State) : withOuts outs (.ok s) = .ok s := rfl

theorem req_eq_ok {c : Bool} {a : HostAbort} {u : Unit} : req c a = .ok u ↔ c = true := by
  cases c <;> simp [req]

theorem getOr_eq_ok {α : Type} {o : Option α} {a : HostAbort} {x : α} : getOr o a = .ok x ↔ o = some x := by
  cases o <;> simp [getOr]

theorem withOuts_eq_ok {outs : List (Reg × Word)} {r : Fn State} {t : State} :
    withOuts outs r = .ok t ↔ r = .ok t := by
  cases r with
  | ok s => simp [withOuts]
  | error e => cases e <;> simp [withOuts]

/-! ## Locks (R246) -/

/-- The lock can be acquired in a mode. -/
def CanLock (l : Locks) (id : LockId) (m : LockMode) : Prop :=
  match m with
  | .shared => lockState l id ≠ some .exclusive
  | .exclusive => lockState l id = none

theorem canLock_of_free {l : Locks} {id : LockId} (m : LockMode) (h : lockState l id = none) : CanLock l id m := by
  cases m
  · simp [CanLock, h]
  · exact h

theorem lockState_setLock_other {l : Locks} {id j : LockId} {st : LockState} (h : j ≠ id) :
    lockState (setLock l id st) j = lockState l j := by
  induction l with
  | nil => simp [setLock, lockState, h.symm]
  | cons e l ih =>
    obtain ⟨i, st'⟩ := e
    by_cases h1 : i = id
    · subst h1
      simp [setLock, lockState, h.symm]
    · by_cases h2 : i = j
      · subst h2
        simp [setLock, lockState, h1]
      · simp [setLock, lockState, h1, h2, ih]

theorem lockState_setLock_self (l : Locks) (id : LockId) (st : LockState) : lockState (setLock l id st) id = some st := by
  induction l with
  | nil => simp [setLock, lockState]
  | cons e l ih =>
    obtain ⟨i, st'⟩ := e
    by_cases h1 : i = id
    · simp [setLock, lockState, h1]
    · simp [setLock, lockState, h1, ih]

/-- Everything acquiring a lock can do: no other lock changes, and one taken in shared mode can be shared again. -/
structure Acquired (l l' : Locks) (id : LockId) (m : LockMode) : Prop where
  got : acquire l id m = some l'
  other : ∀ j, j ≠ id → lockState l' j = lockState l j
  shared : m = .shared → lockState l' id ≠ some .exclusive

theorem acquire_ok {l : Locks} {id : LockId} {m : LockMode} (h : CanLock l id m) : ∃ l', Acquired l l' id m := by
  cases m with
  | exclusive =>
    have h' : lockState l id = none := h
    exact ⟨(id, .exclusive) :: l, by simp [acquire, h'], fun j hj => by simp [lockState, hj.symm], fun e => by cases e⟩
  | shared =>
    cases hs : lockState l id with
    | none =>
      exact ⟨(id, .shared 1) :: l, by simp [acquire, hs], fun j hj => by simp [lockState, hj.symm],
        fun _ => by simp [lockState]⟩
    | some st =>
      cases st with
      | exclusive => exact absurd hs h
      | shared n =>
        exact ⟨setLock l id (.shared (n + 1)), by simp [acquire, hs], fun j hj => lockState_setLock_other hj,
          fun _ => by simp [lockState_setLock_self]⟩

/-- A lock that could be shared can still be after another acquisition in shared mode. -/
theorem Acquired.sharable {l l' : Locks} {id j : LockId} (h : Acquired l l' id .shared)
    (hj : lockState l j ≠ some .exclusive) : lockState l' j ≠ some .exclusive := by
  by_cases e : j = id
  · subst e
    exact h.shared rfl
  · rw [h.other j e]
    exact hj

theorem Acquired.lockOp {l l' : Locks} {id : LockId} {m : LockMode} (h : Acquired l l' id m) (n : Nat) :
    Machine.lockOp l id m n = .ok l' := by
  simp [Machine.lockOp, lockOr, h.got]

theorem lockOp_ok {l : Locks} {id : LockId} {m : LockMode} (n : Nat) (h : CanLock l id m) :
    ∃ l', lockOp l id m n = .ok l' ∧ Acquired l l' id m := by
  obtain ⟨l', h'⟩ := acquire_ok h
  exact ⟨l', h'.lockOp n, h'⟩

/-- A lock that cannot be acquired: the operand is busy. -/
theorem lockOp_busy {l : Locks} {id : LockId} {m : LockMode} (n : Nat) (h : ¬ CanLock l id m) :
    lockOp l id m n = .error (bad Status.operandBusy n) := by
  cases hs : lockState l id with
  | none => exact absurd (canLock_of_free m hs) h
  | some st =>
    cases m <;> cases st <;> simp_all [CanLock, lockOp, lockOr, acquire]

theorem lockOp_shareLock {l : Locks} {id : LockId} (n : Nat) (h : lockState l id ≠ some .exclusive) :
    lockOp l id .shared n = .ok (shareLock l id) := by
  obtain ⟨l', h'⟩ := acquire_ok (m := .shared) h
  rw [h'.lockOp n, shareLock, h'.got]
  rfl

theorem shareLock_acquired {l : Locks} {id : LockId} (h : lockState l id ≠ some .exclusive) :
    Acquired l (shareLock l id) id .shared := by
  obtain ⟨l', h'⟩ := acquire_ok (m := .shared) h
  rw [shareLock, h'.got]
  exact h'

/-- Everything the locks of a 4KB page operand can do: the locks of other pages are as they were, and what could be
shared still can, but for the page itself. -/
structure PageLocked (l l' : Locks) (a : Nat) : Prop where
  other : ∀ j, j ≠ .pamt1g (pageBase a 2) → j ≠ .pamt2m (pageBase a 1) → j ≠ .pamt4k a →
    lockState l' j = lockState l j
  sharable : ∀ j, j ≠ .pamt4k a → lockState l j ≠ some .exclusive → lockState l' j ≠ some .exclusive

/-- A lock of the PAMT. -/
def LockId.isPamt : LockId → Bool
  | .pamt4k _ | .pamt2m _ | .pamt1g _ => true
  | _ => false

/-- No lock outside the PAMT changes. -/
theorem PageLocked.notPamt {l l' : Locks} {a : Nat} (h : PageLocked l l' a) {j : LockId} (hj : j.isPamt = false) :
    lockState l' j = lockState l j :=
  h.other j (by rintro rfl; simp [LockId.isPamt] at hj) (by rintro rfl; simp [LockId.isPamt] at hj)
    (by rintro rfl; simp [LockId.isPamt] at hj)

/-- The lock of another 4KB page does not change. -/
theorem PageLocked.pamt4k {l l' : Locks} {a b : Nat} (h : PageLocked l l' a) (hb : b ≠ a) :
    lockState l' (.pamt4k b) = lockState l (.pamt4k b) := h.other _ (by simp) (by simp) (by simpa using hb)

/-- A 4KB page operand whose locks can be taken. -/
theorem lockPage4k_ok {l : Locks} {a : Nat} {m : LockMode} (n : Nat)
    (h1 : lockState l (.pamt1g (pageBase a 2)) ≠ some .exclusive)
    (h2 : lockState l (.pamt2m (pageBase a 1)) ≠ some .exclusive) (h3 : CanLock l (.pamt4k a) m) :
    ∃ l', lockPage4k l a m .shared n = .ok l' ∧ PageLocked l l' a := by
  obtain ⟨l1, e1, a1⟩ := lockOp_ok (m := .shared) n h1
  obtain ⟨l2, e2, a2⟩ := lockOp_ok (l := l1) (id := .pamt2m (pageBase a 1)) (m := .shared) n
    (by rw [CanLock, a1.other _ (by simp)]; exact h2)
  have h3' : CanLock l2 (.pamt4k a) m := by
    have e : lockState l2 (.pamt4k a) = lockState l (.pamt4k a) := by
      rw [a2.other _ (by simp), a1.other _ (by simp)]
    cases m <;> simpa only [CanLock, e] using h3
  obtain ⟨l3, e3, a3⟩ := lockOp_ok (l := l2) n h3'
  refine ⟨l3, by simp only [lockPage4k, e1, e2, e3, answer_goesOn], ?_, ?_⟩
  · intro j j1 j2 j3
    rw [a3.other j j3, a2.other j j2, a1.other j j1]
  · intro j j3 hj
    rw [a3.other j j3]
    exact a2.sharable (a1.sharable hj)

/-- The locks that TDH.VP.ENTER takes on the VCPU's page. -/
theorem lockPage4k_entry {l : Locks} {v : Nat} (n : Nat) (h1 : lockState l (.pamt1g (pageBase v 2)) ≠ some .exclusive)
    (h2 : lockState l (.pamt2m (pageBase v 1)) ≠ some .exclusive) (h3 : lockState l (.pamt4k v) ≠ some .exclusive) :
    lockPage4k l v .shared .shared n =
      .ok (shareLock (shareLock (shareLock l (.pamt1g (pageBase v 2))) (.pamt2m (pageBase v 1))) (.pamt4k v)) := by
  have a1 := shareLock_acquired h1
  have h2' := a1.sharable h2
  have a2 := shareLock_acquired h2'
  simp only [lockPage4k, lockOp_shareLock n h1, lockOp_shareLock n h2',
    lockOp_shareLock n (a2.sharable (a1.sharable h3)), answer_goesOn]

/-! ## Operands -/

theorem checkHpa_ok {s : State} {pa : Word} {align : Nat} (id : Nat) (h : OpaqueOperand s pa align) :
    checkHpa s id pa align = .ok pa.toNat := by
  obtain ⟨h1, h2, h3, h4, h5⟩ := h
  simp [checkHpa, h1, h2, h3, h4, h5]

theorem checkShared_ok {s : State} {pa : Word} {align : Nat} (id : Nat) (h : SharedOperand s pa align) :
    checkShared s id pa align = .ok pa.toNat := by
  obtain ⟨h1, h2, h3⟩ := h
  simp [checkShared, h1, h2, h3]

theorem readShared_ok {s : State} {pa : Word} {n : Nat} (h : SharedReadable s pa n) :
    readShared s pa.toNat n = .ok (sharedBytes s pa.toNat n) := by
  have h' : sharedReadable s pa.toNat n = true := h
  simp [readShared, h']

theorem reqBacked_ok {s : State} {pa : Word} {n : Nat} (h : SharedBacked s pa n) : reqBacked s pa.toNat n = .ok () := by
  have h' : s.plat.backed (addrOf s.plat pa.toNat) n = true := h
  simp [reqBacked, h']

theorem checkTdState_ok {t : Tdr} (h : TdUsable t) : checkTdState t = .ok () := by
  obtain ⟨h1, h2, h3⟩ := h
  simp [checkTdState, h1, h2, h3]

theorem getTdr_ok {s : State} {a : Nat} {t : Tdr} (h : TdrPage s a t) : getTdr s a = .ok t := by
  obtain ⟨_, h2, h3⟩ := h
  simp [getTdr, h2, h3]

theorem getTdcs_ok {s : State} {a : Nat} {t : Tdr} {c : Tdcs} (h : TdcsOf s a t c) : getTdcs s a t = .ok c := by
  obtain ⟨h1, h2⟩ := h
  simp only [getTdcs, h1, h2, req_true, answer_goesOn, getOr_some]

theorem checkTd_ok {s : State} {a : Nat} {t : Tdr} (id : Nat) (h : TdrPage s a t) (hu : TdUsable t) :
    checkTd s a id = .ok t := by
  simp [checkTd, h.1, getTdr_ok h, checkTdState_ok hu]

/-- CheckHpa, the locks and CheckTD of a TDR operand. -/
theorem openTd_ok {s : State} {pa : Word} {t : Tdr} {c : Tdcs} {m : LockMode} (id : Nat) (h : TdOperand s pa t c)
    (h1 : Sharable s (.pamt1g (pageBase pa.toNat 2))) (h2 : Sharable s (.pamt2m (pageBase pa.toNat 1)))
    (h3 : CanLock s.locks (.pamt4k pa.toNat) m) :
    ∃ l, openTd s id pa m = .ok (l, pa.toNat, t, c) ∧ PageLocked s.locks l pa.toNat := by
  obtain ⟨k1, k2, k3, k4⟩ := h
  obtain ⟨l, e, hl⟩ := lockPage4k_ok (m := m) id h1 h2 h3
  exact ⟨l, by simp only [openTd, checkHpa_ok id k1, e, checkTd_ok id k2 k3, getTdcs_ok k4, answer_goesOn, pure_answers], hl⟩

/-- The TDR operand of a function that locks it in shared mode. -/
theorem openTd_shared {s : State} {pa : Word} {t : Tdr} {c : Tdcs} (id : Nat) (h : TdOperand s pa t c)
    (hl : PageSharable s pa.toNat) :
    ∃ l, openTd s id pa .shared = .ok (l, pa.toNat, t, c) ∧ PageLocked s.locks l pa.toNat :=
  openTd_ok id h hl.1 hl.2.1 hl.2.2

/-- The TDR operand of a function that locks it exclusively. -/
theorem openTd_exclusive {s : State} {pa : Word} {t : Tdr} {c : Tdcs} (id : Nat) (h : TdOperand s pa t c)
    (hl : PageTakable s pa.toNat) :
    ∃ l, openTd s id pa .exclusive = .ok (l, pa.toNat, t, c) ∧ PageLocked s.locks l pa.toNat :=
  openTd_ok id h hl.1 hl.2.1 hl.2.2

/-- The TDR operand in RCX of the TDH.MNG functions, locked exclusively. -/
theorem lockTdr_ok {s : State} (h : OpaqueOperand s (s.hreg .rcx) 4096) (hl : PageTakable s (s.hreg .rcx).toNat) :
    ∃ l, lockTdr s = .ok (l, (s.hreg .rcx).toNat) ∧ PageLocked s.locks l (s.hreg .rcx).toNat := by
  obtain ⟨l, e, k⟩ := lockPage4k_ok (m := .exclusive) Operand.rcx hl.1 hl.2.1 hl.2.2
  exact ⟨l, by simp only [lockTdr, checkHpa_ok _ h, e, answer_goesOn, pure_answers], k⟩

theorem typedTdr_ok {s : State} {a : Nat} {t : Tdr} (id : Nat) (h : TdrPage s a t) : typedTdr s a id = .ok t := by
  simp [typedTdr, h.1, getTdr_ok h]

/-- A mapping word. -/
theorem mapInfo_ok {w : Word} {c : Tdcs} {lmin lmax level gpa : Nat} (id : Nat)
    (h : MapOperand w c lmin lmax level gpa) : mapInfo id lmin lmax w = .ok (level, gpa) := by
  obtain ⟨h1, h2, h3, h4, h5, h6, h7, _, _⟩ := h
  simp [mapInfo, h1, h2, h3, h4, h5, h6, h7]

theorem mapInfoTd_ok {w : Word} {c : Tdcs} {lmin lmax level gpa : Nat} (id : Nat)
    (h : MapOperand w c lmin lmax level gpa) : mapInfoTd c id level gpa = .ok () := by
  obtain ⟨_, _, _, _, _, _, _, h8, h9⟩ := h
  simp [mapInfoTd, h8, h9]

/-- The opening of a function with a mapping word in RCX and a TDR in RDX. -/
theorem openMap_ok {s : State} {t : Tdr} {c : Tdcs} {lmin lmax level gpa : Nat} {m : LockMode}
    (ht : TdOperand s (s.hreg .rdx) t c) (hm : MapOperand (s.hreg .rcx) c lmin lmax level gpa)
    (h1 : Sharable s (.pamt1g (pageBase (s.hreg .rdx).toNat 2)))
    (h2 : Sharable s (.pamt2m (pageBase (s.hreg .rdx).toNat 1)))
    (h3 : CanLock s.locks (.pamt4k (s.hreg .rdx).toNat) m) :
    ∃ l, openMap s m lmin lmax = .ok (l, (s.hreg .rdx).toNat, t, c, level, gpa) ∧
      PageLocked s.locks l (s.hreg .rdx).toNat := by
  obtain ⟨l, e, k⟩ := openTd_ok Operand.rdx ht h1 h2 h3
  exact ⟨l, by simp only [openMap, mapInfo_ok _ hm, e, mapInfoTd_ok _ hm, answer_goesOn, pure_answers], k⟩

/-- A free page operand of 4KB or 2MB after a TDR operand. -/
theorem takeFreePage_ok {s : State} {l : Locks} {pa : Word} {level td : Nat} (id : Nat) (hl : PageLocked s.locks l td)
    (h : FreePage s pa level td) (hlev : level ≤ 1) :
    ∃ l', takeFreePage s l id pa level = .ok (l', pa.toNat) ∧
      (∀ j, j.isPamt = false → lockState l' j = lockState s.locks j) ∧
      (level = 0 → PageLocked l l' pa.toNat) := by
  obtain ⟨h1, h2, h3, h4, h5⟩ := h
  have hr : (level == 0 || pamtRangeReadable s pa.toNat) = true := by
    rcases Nat.le_one_iff_eq_zero_or_eq_one.1 hlev with e | e
    · simp [e]
    · simp [(h5 e).2.2]
  have key : ∀ l', lockPage l pa.toNat level .exclusive .shared id = .ok l' →
      takeFreePage s l id pa level = .ok (l', pa.toNat) := by
    intro l' hl'
    simp only [takeFreePage, checkHpa_ok id h1, hl', h2, hr, req_true, answer_goesOn, pure_answers]
  have g1 := hl.sharable _ (by simp) h3
  rcases Nat.le_one_iff_eq_zero_or_eq_one.1 hlev with e | e
  · obtain ⟨k1, k2, k3⟩ := h4 e
    obtain ⟨l', e', k⟩ := lockPage4k_ok (m := .exclusive) id g1 (hl.sharable _ (by simp) k2)
      (by rw [CanLock, hl.pamt4k k1]; exact k3)
    exact ⟨l', key l' (by rw [e]; exact e'), fun j hj => (k.notPamt hj).trans (hl.notPamt hj), fun _ => k⟩
  · obtain ⟨k1, k2, _⟩ := h5 e
    obtain ⟨l1, e1, a1⟩ := lockOp_ok (m := .shared) id g1
    obtain ⟨l2, e2, a2⟩ := lockOp_ok (l := l1) (id := .pamt2m pa.toNat) (m := .exclusive) id
      (by rw [CanLock, a1.other _ (by simp), hl.other _ (by simp) (by simpa using k1) (by simp)]; exact k2)
    refine ⟨l2, key l2 (by rw [e]; simp only [lockPage, e1, e2, answer_goesOn]), fun j hj => ?_,
      fun h' => absurd (e.symm.trans h') (by simp)⟩
    rw [a2.other j (by rintro rfl; simp [LockId.isPamt] at hj), a1.other j (by rintro rfl; simp [LockId.isPamt] at hj),
      hl.notPamt hj]

/-- The Secure EPT lock and a walk that succeeds. -/
theorem lockWalk_ok {s : State} {l : Locks} {td gpa : Nat} {t : Tdr} {c : Tdcs} {target : Option Nat}
    {p : SeptPos} {m : LockMode} (hl : CanLock l (.sept td) m) (hw : septWalk s c t.hkid gpa target = .ok p) :
    ∃ l', lockWalk s l td t c gpa target m = .ok (l', p) ∧ Acquired l l' (.sept td) m := by
  obtain ⟨l', e, k⟩ := lockOp_ok Operand.sept hl
  exact ⟨l', by simp only [lockWalk, e, walkOr, hw, answer_goesOn, pure_answers], k⟩

/-- The TD of a TDVPR operand. -/
theorem lockOwner_ok {s : State} {l : Locks} {v td : Nat} {t : Tdr} {m : LockMode} (ho : s.ownerOf v = td)
    (hp : pamtReadable s td = true) (ht : TdrPage s td t) (hl : CanLock l (.pamt4k td) m) :
    ∃ l', lockOwner s l v m = .ok (l', td, t) ∧ Acquired l l' (.pamt4k td) m := by
  subst ho
  obtain ⟨l', e, k⟩ := lockOp_ok Operand.tdr hl
  exact ⟨l', by simp only [lockOwner, hp, e, ht.1, getTdr_ok ht, req_true, answer_goesOn, pure_answers], k⟩

theorem getVp_ok {s : State} {v h : Nat} {p : Tdvps} (hv : tblGet s.vps v = some p)
    (hr : (p.pagePa.all fun a => pageReadable s h a) = true) : getVp s v h = .ok p := by
  simp only [getVp, hv, hr, getOr_some, answer_goesOn, req_true, pure_answers]

/-- A TDR page is not a TDVPR page. -/
theorem tdr_ne_of_types {s : State} {v td : Nat} {pt : PageType} (hv : pageIs s v 0 pt = true)
    (ht : pageIs s td 0 .tdr = true) (hne : pt ≠ .tdr) : td ≠ v := by
  rintro rfl
  simp only [pageIs, Bool.and_eq_true, beq_iff_eq] at hv ht
  exact hne (hv.2.symm.trans ht.2)

/-! ## A chunk of a debuggable TD's private memory (R428, R433) -/

/-- The opening of TDH.MEM.RD and TDH.MEM.WR: the locks they hold, and the chunk they have read. -/
theorem openChunk_ok {s : State} {t : Tdr} {c : Tdcs} {p : SeptPos} (ha : isAligned (s.hreg .rcx).toNat 8 = true)
    (ht : TdOperand s (s.hreg .rdx) t c) (hl : PageSharable s (s.hreg .rdx).toNat)
    (hs : Sharable s (.sept (s.hreg .rdx).toNat)) (hg : c.privateGpa (s.hreg .rcx).toNat = true) (hd : c.debug = true)
    (hw : septWalk s c t.hkid (s.hreg .rcx).toNat none = .ok p) (hp : p.entry.state = .present)
    (hq : poisoned s t.hkid (p.entry.hpa + (s.hreg .rcx).toNat % pageBytes p.level) 8 = false) :
    openChunk s = .ok (chunkLocks s.locks (s.hreg .rdx).toNat,
      ⟨(s.hreg .rdx).toNat, p.entry.hpa + (s.hreg .rcx).toNat % pageBytes p.level, t.hkid, septEntryOut c p.entry,
        septInfoOut p.level p.entry, read64 s t.hkid (p.entry.hpa + (s.hreg .rcx).toNat % pageBytes p.level)⟩) := by
  obtain ⟨k1, k2, k3, k4⟩ := ht
  have e := lockPage4k_entry Operand.rdx hl.1 hl.2.1 hl.2.2
  obtain ⟨l', e', k⟩ := lockPage4k_ok (m := .shared) Operand.rdx hl.1 hl.2.1 hl.2.2
  obtain rfl := Except.ok.inj (e.symm.trans e')
  rw [Sharable, ← k.notPamt (j := .sept (s.hreg .rdx).toNat) rfl] at hs
  have hs' := lockOp_shareLock Operand.sept hs
  simp only [openChunk, openTd, checkHpa_ok _ k1, e, checkTd_ok _ k2 k3, getTdcs_ok k4, lockWalk, hs', walkOr, hw, ha, hg, hd,
    hp, hq, answer_goesOn, pure_answers, req_true, beq_self_eq_true, Bool.not_false, chunkLocks, List.foldl]

/-! ## A VCPU that a host-side function reads or writes (R515 to R517) -/

/-- Association of a VCPU that may be associated: what the two tables are after it. -/
theorem associate_ok {s : State} {a td hkid : Nat} {v : Tdvps} (h1 : v.vcpuState ≠ .uninitialized)
    (h2 : v.vcpuState ≠ .disabled) (h3 : v.assocLpid = none ∨ v.assocLpid = some s.curLp) :
    associate s a td v hkid =
      .ok ((s.modVp a fun p => p.associated s.plat s.curLp hkid).modTdcs td fun c =>
        if v.assocLpid = none then { c with numAssocVcpus := c.numAssocVcpus + 1 } else c) := by
  have e1 : (v.vcpuState != .uninitialized && v.vcpuState != .disabled) = true := by simp [h1, h2]
  have e2 : (v.assocLpid == none || v.assocLpid == some s.curLp) = true := by rcases h3 with h | h <;> simp [h]
  simp only [associate, e1, e2, req_true, answer_goesOn, pure_answers]

/-- A disabled VCPU is refused. -/
theorem associate_disabled {s : State} {a td hkid : Nat} {v : Tdvps} (h : v.vcpuState = .disabled) :
    associate s a td v hkid = .error (bad Status.vcpuStateIncorrect 0) := by
  simp [associate, h, req]

/-- The opening of TDH.VP.RD and TDH.VP.WR. -/
theorem openVp_ok {s : State} {td : Nat} {t : Tdr} {c : Tdcs} {p : Tdvps} (h : VcpuOperand s (s.hreg .rcx) td t c p)
    (hl : PageSharable s (s.hreg .rcx).toNat) (hu : TdUsable t) (hn : p.numTdvpx = s.plat.tdvpxRequired) :
    openVp s = .ok ((s.hreg .rcx).toNat, td, t, c, p) := by
  obtain ⟨k1, k2, k3, k4, k5, k6, k7, k8, k9⟩ := h
  obtain ⟨l, e, hk⟩ := lockPage4k_ok (m := .shared) Operand.rcx hl.1 hl.2.1 hl.2.2
  have hne : td ≠ (s.hreg .rcx).toNat := tdr_ne_of_types k2 k6.1 (by simp)
  obtain ⟨l', e', _⟩ := lockOwner_ok (m := .shared) k3 k4 k6 (by rw [CanLock, hk.pamt4k hne]; exact k5)
  simp only [openVp, checkHpa_ok _ k1, e, k2, e', checkTdState_ok hu, getTdcs_ok k7, getVp_ok k8 k9, hn, beq_self_eq_true,
    req_true, answer_goesOn, pure_answers]

/-! ## How SEAMCALL ends (R321, R752) -/

/-- No stop before a step of a logical processor that executes. -/
theorem lpStop_none {s : State} (h1 : s.curLp < s.lps.length) (h2 : s.lp.shutdown = false) : lpStop s = none := by
  simp [lpStop, Nat.not_le.2 h1, h2]

/-- SEAMCALL that reaches its function: the function's answer, completed. -/
theorem hostCall_reaches {s : State} {sys : Bool} {body : State → Fn State} (h : HostCalls s)
    (hs : sys = true ∨ s.sysState = .sysReady) : hostCall sys body s = .next (finishHost s (body s)) := by
  obtain ⟨h1, h2, h3, h4, h5⟩ := h
  rcases hs with rfl | hs
  · simp [hostCall, rootCall, lpStop_none h1 h2, h3, h4, h5]
  · cases sys <;> simp [hostCall, rootCall, lpStop_none h1 h2, h3, h4, h5, hs]

theorem hostCall_ok {s t : State} {sys : Bool} {body : State → Fn State} (h : HostCalls s)
    (hs : sys = true ∨ s.sysState = .sysReady) (hb : body s = .ok t) : hostCall sys body s = .next t := by
  rw [hostCall_reaches h hs, hb]
  rfl

theorem hostCall_ready {s t : State} {body : State → Fn State} (h : HostReady s) (hb : body s = .ok t) :
    hostCall false body s = .next t := hostCall_ok h.1 (Or.inr h.2) hb

theorem hostCall_error {s : State} {sys : Bool} {body : State → Fn State} {e : HostAbort} (h : HostCalls s)
    (hs : sys = true ∨ s.sysState = .sysReady) (hb : body s = .error e) :
    hostCall sys body s = .next (finishHost s (.error e)) := by
  rw [hostCall_reaches h hs, hb]

/-- Everything SEAMCALL can do: what each next state of `hostCall` is. -/
theorem hostCall_next {s t : State} {sys : Bool} {body : State → Fn State} (h : hostCall sys body s = .next t) :
    (∃ v, s.lp.curVcpu = some v ∧ t = guestFault s v (VmExit.plain 76) 6 none) ∨
    (s.seamDisabled = true ∧ t = vmfailInvalid s) ∨ (s.lp.seamcallBlocked = true ∧ t = blockedReturn s) ∨
    (∃ st, (st = Status.sysShutdown ∨ st = Status.sysNotReady) ∧ t = hostReturn s st 0 []) ∨
    (HostCalls s ∧ (sys = true ∨ s.sysState = .sysReady) ∧ t = finishHost s (body s)) := by
  unfold hostCall at h
  split at h
  · rename_i o ho
    unfold lpStop at ho
    split at ho
    · cases ho; cases h
    · split at ho
      · cases ho; cases h
      · cases ho
  · rename_i v _ hv
    cases h
    exact Or.inl ⟨v, hv, rfl⟩
  · rename_i hstop hv
    have hs : s.curLp < s.lps.length ∧ s.lp.shutdown = false := by
      unfold lpStop at hstop
      split at hstop
      · cases hstop
      · rename_i h1
        split at hstop
        · cases hstop
        · rename_i h2
          exact ⟨Nat.not_le.1 h1, by simpa using h2⟩
    cases h
    unfold rootCall
    split
    · rename_i h3
      exact Or.inr (Or.inl ⟨h3, rfl⟩)
    · rename_i h3
      split
      · rename_i h4
        exact Or.inr (Or.inr (Or.inl ⟨h4, rfl⟩))
      · rename_i h4
        have hc : HostCalls s := ⟨hs.1, hs.2, hv, by simpa using h3, by simpa using h4⟩
        split
        · rename_i h5
          exact Or.inr (Or.inr (Or.inr (Or.inr ⟨hc, Or.inl h5, rfl⟩)))
        · split
          · exact Or.inr (Or.inr (Or.inr (Or.inl ⟨_, Or.inl rfl, rfl⟩)))
          · split
            · exact Or.inr (Or.inr (Or.inr (Or.inl ⟨_, Or.inr rfl, rfl⟩)))
            · rename_i h6
              exact Or.inr (Or.inr (Or.inr (Or.inr ⟨hc, Or.inr (by simpa using h6), rfl⟩)))

end Sys2Proof.Machine
end

