-- ==== Sys2Proof/Laws/PerInstr.lean ====
section
/-! SUPPORT. Statements made per instruction: one lemma for each constructor of `Instr`. -/

namespace Sys2Proof.Laws.LeafFound

/-- The leaf table of the instruction's own side names the instruction at its leaf number, and the instruction is
well formed for that side and for no other (30_encoding.md rules R320 and R328). -/
def Statement (i : Instr) : Prop :=
  findLeaf (leafRows i.side) i.leaf = some i ∧ ∀ side, i.wellFormed side = true ↔ side = i.side

/-- The leaf of `tdhVpEnter`. -/
theorem tdhVpEnter : Statement .tdhVpEnter := ⟨rfl, fun side => by cases side <;> decide⟩

/-- The leaf of `tdhMngAddcx`. -/
theorem tdhMngAddcx : Statement .tdhMngAddcx := ⟨rfl, fun side => by cases side <;> decide⟩

/-- The leaf of `tdhMemPageAdd`. -/
theorem tdhMemPageAdd : Statement .tdhMemPageAdd := ⟨rfl, fun side => by cases side <;> decide⟩

/-- The leaf of `tdhMemSeptAdd`. -/
theorem tdhMemSeptAdd : Statement .tdhMemSeptAdd := ⟨rfl, fun side => by cases side <;> decide⟩

/-- The leaf of `tdhVpAddcx`. -/
theorem tdhVpAddcx : Statement .tdhVpAddcx := ⟨rfl, fun side => by cases side <;> decide⟩

/-- The leaf of `tdhMemPageRelocate`. -/
theorem tdhMemPageRelocate : Statement .tdhMemPageRelocate := ⟨rfl, fun side => by cases side <;> decide⟩

/-- The leaf of `tdhMemPageAug`. -/
theorem tdhMemPageAug : Statement .tdhMemPageAug := ⟨rfl, fun side => by cases side <;> decide⟩

/-- The leaf of `tdhMemRangeBlock`. -/
theorem tdhMemRangeBlock : Statement .tdhMemRangeBlock := ⟨rfl, fun side => by cases side <;> decide⟩

/-- The leaf of `tdhMngKeyConfig`. -/
theorem tdhMngKeyConfig : Statement .tdhMngKeyConfig := ⟨rfl, fun side => by cases side <;> decide⟩

/-- The leaf of `tdhMngCreate`. -/
theorem tdhMngCreate : Statement .tdhMngCreate := ⟨rfl, fun side => by cases side <;> decide⟩

/-- The leaf of `tdhVpCreate`. -/
theorem tdhVpCreate : Statement .tdhVpCreate := ⟨rfl, fun side => by cases side <;> decide⟩

/-- The leaf of `tdhMngRd`. -/
theorem tdhMngRd : Statement .tdhMngRd := ⟨rfl, fun side => by cases side <;> decide⟩

/-- The leaf of `tdhMemRd`. -/
theorem tdhMemRd : Statement .tdhMemRd := ⟨rfl, fun side => by cases side <;> decide⟩

/-- The leaf of `tdhMngWr`. -/
theorem tdhMngWr : Statement .tdhMngWr := ⟨rfl, fun side => by cases side <;> decide⟩

/-- The leaf of `tdhMemWr`. -/
theorem tdhMemWr : Statement .tdhMemWr := ⟨rfl, fun side => by cases side <;> decide⟩

/-- The leaf of `tdhMemPageDemote`. -/
theorem tdhMemPageDemote : Statement .tdhMemPageDemote := ⟨rfl, fun side => by cases side <;> decide⟩

/-- The leaf of `tdhMrExtend`. -/
theorem tdhMrExtend : Statement .tdhMrExtend := ⟨rfl, fun side => by cases side <;> decide⟩

/-- The leaf of `tdhMrFinalize`. -/
theorem tdhMrFinalize : Statement .tdhMrFinalize := ⟨rfl, fun side => by cases side <;> decide⟩

/-- The leaf of `tdhVpFlush`. -/
theorem tdhVpFlush : Statement .tdhVpFlush := ⟨rfl, fun side => by cases side <;> decide⟩

/-- The leaf of `tdhMngVpflushdone`. -/
theorem tdhMngVpflushdone : Statement .tdhMngVpflushdone := ⟨rfl, fun side => by cases side <;> decide⟩

/-- The leaf of `tdhMngKeyFreeid`. -/
theorem tdhMngKeyFreeid : Statement .tdhMngKeyFreeid := ⟨rfl, fun side => by cases side <;> decide⟩

/-- The leaf of `tdhMngInit`. -/
theorem tdhMngInit : Statement .tdhMngInit := ⟨rfl, fun side => by cases side <;> decide⟩

/-- The leaf of `tdhVpInit`. -/
theorem tdhVpInit : Statement .tdhVpInit := ⟨rfl, fun side => by cases side <;> decide⟩

/-- The leaf of `tdhMemPagePromote`. -/
theorem tdhMemPagePromote : Statement .tdhMemPagePromote := ⟨rfl, fun side => by cases side <;> decide⟩

/-- The leaf of `tdhPhymemPageRdmd`. -/
theorem tdhPhymemPageRdmd : Statement .tdhPhymemPageRdmd := ⟨rfl, fun side => by cases side <;> decide⟩

/-- The leaf of `tdhMemSeptRd`. -/
theorem tdhMemSeptRd : Statement .tdhMemSeptRd := ⟨rfl, fun side => by cases side <;> decide⟩

/-- The leaf of `tdhVpRd`. -/
theorem tdhVpRd : Statement .tdhVpRd := ⟨rfl, fun side => by cases side <;> decide⟩

/-- The leaf of `tdhMngKeyReclaimid`. -/
theorem tdhMngKeyReclaimid : Statement .tdhMngKeyReclaimid := ⟨rfl, fun side => by cases side <;> decide⟩

/-- The leaf of `tdhPhymemPageReclaim`. -/
theorem tdhPhymemPageReclaim : Statement .tdhPhymemPageReclaim := ⟨rfl, fun side => by cases side <;> decide⟩

/-- The leaf of `tdhMemPageRemove`. -/
theorem tdhMemPageRemove : Statement .tdhMemPageRemove := ⟨rfl, fun side => by cases side <;> decide⟩

/-- The leaf of `tdhMemSeptRemove`. -/
theorem tdhMemSeptRemove : Statement .tdhMemSeptRemove := ⟨rfl, fun side => by cases side <;> decide⟩

/-- The leaf of `tdhSysKeyConfig`. -/
theorem tdhSysKeyConfig : Statement .tdhSysKeyConfig := ⟨rfl, fun side => by cases side <;> decide⟩

/-- The leaf of `tdhSysInfo`. -/
theorem tdhSysInfo : Statement .tdhSysInfo := ⟨rfl, fun side => by cases side <;> decide⟩

/-- The leaf of `tdhSysInit`. -/
theorem tdhSysInit : Statement .tdhSysInit := ⟨rfl, fun side => by cases side <;> decide⟩

/-- The leaf of `tdhSysLpInit`. -/
theorem tdhSysLpInit : Statement .tdhSysLpInit := ⟨rfl, fun side => by cases side <;> decide⟩

/-- The leaf of `tdhSysTdmrInit`. -/
theorem tdhSysTdmrInit : Statement .tdhSysTdmrInit := ⟨rfl, fun side => by cases side <;> decide⟩

/-- The leaf of `tdhMemTrack`. -/
theorem tdhMemTrack : Statement .tdhMemTrack := ⟨rfl, fun side => by cases side <;> decide⟩

/-- The leaf of `tdhMemRangeUnblock`. -/
theorem tdhMemRangeUnblock : Statement .tdhMemRangeUnblock := ⟨rfl, fun side => by cases side <;> decide⟩

/-- The leaf of `tdhPhymemCacheWb`. -/
theorem tdhPhymemCacheWb : Statement .tdhPhymemCacheWb := ⟨rfl, fun side => by cases side <;> decide⟩

/-- The leaf of `tdhPhymemPageWbinvd`. -/
theorem tdhPhymemPageWbinvd : Statement .tdhPhymemPageWbinvd := ⟨rfl, fun side => by cases side <;> decide⟩

/-- The leaf of `tdhVpWr`. -/
theorem tdhVpWr : Statement .tdhVpWr := ⟨rfl, fun side => by cases side <;> decide⟩

/-- The leaf of `tdhSysLpShutdown`. -/
theorem tdhSysLpShutdown : Statement .tdhSysLpShutdown := ⟨rfl, fun side => by cases side <;> decide⟩

/-- The leaf of `tdhSysConfig`. -/
theorem tdhSysConfig : Statement .tdhSysConfig := ⟨rfl, fun side => by cases side <;> decide⟩

/-- The leaf of `tdgVpVmcall`. -/
theorem tdgVpVmcall : Statement .tdgVpVmcall := ⟨rfl, fun side => by cases side <;> decide⟩

/-- The leaf of `tdgVpInfo`. -/
theorem tdgVpInfo : Statement .tdgVpInfo := ⟨rfl, fun side => by cases side <;> decide⟩

/-- The leaf of `tdgMrRtmrExtend`. -/
theorem tdgMrRtmrExtend : Statement .tdgMrRtmrExtend := ⟨rfl, fun side => by cases side <;> decide⟩

/-- The leaf of `tdgVpVeinfoGet`. -/
theorem tdgVpVeinfoGet : Statement .tdgVpVeinfoGet := ⟨rfl, fun side => by cases side <;> decide⟩

/-- The leaf of `tdgMrReport`. -/
theorem tdgMrReport : Statement .tdgMrReport := ⟨rfl, fun side => by cases side <;> decide⟩

/-- The leaf of `tdgVpCpuidveSet`. -/
theorem tdgVpCpuidveSet : Statement .tdgVpCpuidveSet := ⟨rfl, fun side => by cases side <;> decide⟩

/-- The leaf of `tdgMemPageAccept`. -/
theorem tdgMemPageAccept : Statement .tdgMemPageAccept := ⟨rfl, fun side => by cases side <;> decide⟩

/-- The leaf of `tdgVmRd`. -/
theorem tdgVmRd : Statement .tdgVmRd := ⟨rfl, fun side => by cases side <;> decide⟩

/-- The leaf of `tdgVmWr`. -/
theorem tdgVmWr : Statement .tdgVmWr := ⟨rfl, fun side => by cases side <;> decide⟩

end Sys2Proof.Laws.LeafFound
end

