-- ==== Sys2Proof/Laws/Post.lean ====
section
/-! SUPPORT. Conditions on every answer of a sequence of checks: what holds of all that a function can answer follows
from its steps, one by one. -/

namespace Sys2Proof.Machine

/-- Whatever the function answers meets the condition. -/
def Answers {ε α : Type} (r : Except ε α) (Q : α → Prop) : Prop := ∀ a, r = .ok a → Q a

theorem answers_ok {ε α : Type} {x : α} {Q : α → Prop} (h : Q x) : Answers (Except.ok x : Except ε α) Q := by
  intro a ha
  cases ha
  exact h

theorem answers_pure {ε α : Type} {x : α} {Q : α → Prop} (h : Q x) : Answers (pure x : Except ε α) Q := answers_ok h

theorem answers_error {ε α : Type} (e : ε) (Q : α → Prop) : Answers (Except.error e : Except ε α) Q := by
  intro a ha
  cases ha

theorem answers_bind {ε α β : Type} {x : Except ε α} {f : α → Except ε β} {Q : β → Prop}
    (h : ∀ a, x = .ok a → Answers (f a) Q) : Answers (x >>= f) Q := by
  cases x with
  | ok a => exact h a rfl
  | error e => exact answers_error e Q

theorem answers_ite {ε α : Type} {c : Prop} [Decidable c] {x y : Except ε α} {Q : α → Prop}
    (h : c → Answers x Q) (k : ¬ c → Answers y Q) : Answers (if c then x else y) Q := by
  split
  · exact h (by assumption)
  · exact k (by assumption)

theorem answers_withOuts {outs : List (Reg × Word)} {r : Fn State} {Q : State → Prop} (h : Answers r Q) :
    Answers (withOuts outs r) Q := fun a ha => h a (withOuts_eq_ok.1 ha)

theorem answers_gWithOuts {α : Type} {outs : List (Reg × Word)} {r : GFn α} {Q : α → Prop} (h : Answers r Q) :
    Answers (gWithOuts outs r) Q := by
  intro a ha
  refine h a ?_
  unfold gWithOuts at ha
  split at ha
  · cases ha
  · exact ha

/-- A condition that is weaker. -/
theorem answers_mono {ε α : Type} {r : Except ε α} {P Q : α → Prop} (h : Answers r P) (k : ∀ a, P a → Q a) :
    Answers r Q := fun a ha => k a (h a ha)

/-! ## The VM entry of TDH.VP.ENTER -/

/-- A guest state that the CPU accepts: the entry delivers what is to be delivered. -/
theorem enterGuest_accepted {s : State} {v : Nat} {c : Tdcs} {p : Tdvps} (h : entryRefusal c p = none) :
    enterGuest s v c p = entryEvents s v := by rw [enterGuest, h]

/-- A guest state that the CPU refuses: the entry is a VM exit that the module does not expect (R642). -/
theorem enterGuest_refused {s : State} {v n : Nat} {c : Tdcs} {p : Tdvps} (h : entryRefusal c p = some n) :
    enterGuest s v c p = unexpectedExit s v (entryFailureExit n (Config.freeWord s.tick 39)) := by rw [enterGuest, h]

/-- Only a TD under a debugger has its entry refused (R642). -/
theorem entryRefusal_production {c : Tdcs} {p : Tdvps} (h : c.debug = false) : entryRefusal c p = none := by
  simp [entryRefusal, h]

end Sys2Proof.Machine
end

