-- ==== Sys2Proof/Laws/Tags.lean ====
section
/-! SUPPORT. Line tags after a write, and what a write leaves of every other byte (20_memory.md rules R247, R270,
R272). -/

namespace Sys2Proof.Machine

/-- The tag that the last change point of a list gives. -/
def lastTag (cur : LineTag) (ts : Table LineTag) : LineTag := ts.foldl (fun _ e => e.2) cur

/-- The tag at a line is that of the last change point at or below it. -/
theorem tagFrom_eq {ts : Table LineTag} (cur : LineTag) (line : Nat) (h : tblWf ts = true) :
    tagFrom cur ts line = lastTag cur (ts.filter fun e => decide (e.1 ≤ line)) := by
  rw [tblWf_iff] at h
  induction ts generalizing cur with
  | nil => rfl
  | cons e ts ih =>
    obtain ⟨k, t⟩ := e
    rw [List.pairwise_cons] at h
    by_cases hk : k ≤ line
    · simp only [tagFrom, hk, if_true, ih t h.2, List.filter_cons, decide_true, lastTag, List.foldl_cons]
    · have hn : ts.filter (fun e => decide (e.1 ≤ line)) = [] := by
        rw [List.filter_eq_nil_iff]
        intro e he
        have := h.1 e he
        simp only at this
        simp only [decide_eq_true_eq]
        omega
      simp [tagFrom, hk, hn, lastTag]

/-- The change points up to a line are those up to an earlier line and those between. -/
theorem filter_split {ts : Table LineTag} {hi line : Nat} (h : ts.Pairwise fun a b => a.1 < b.1) (hle : hi ≤ line) :
    ts.filter (fun e => decide (e.1 ≤ line)) =
      ts.filter (fun e => decide (e.1 ≤ hi)) ++
        ts.filter (fun e => decide (e.1 ≤ line) && decide (hi < e.1)) := by
  induction ts with
  | nil => rfl
  | cons e ts ih =>
    rw [List.pairwise_cons] at h
    by_cases h4 : e.1 ≤ hi
    · have h5 : e.1 ≤ line := by omega
      have h6 : ¬ hi < e.1 := by omega
      simp [h4, h5, h6, ih h.2]
    · have h6 : hi < e.1 := by omega
      have hn : ts.filter (fun e => decide (e.1 ≤ hi)) = [] := by
        rw [List.filter_eq_nil_iff]
        intro x hx
        have := h.1 x hx
        simp only [decide_eq_true_eq]
        omega
      have hf : ts.filter (fun e => decide (e.1 ≤ line) && decide (hi < e.1)) =
          ts.filter (fun e => decide (e.1 ≤ line)) := by
        apply List.filter_congr
        intro x hx
        have := h.1 x hx
        have h7 : hi < x.1 := by omega
        simp [h7]
      simp [List.filter_cons, h4, h6, hn, hf]

theorem tagFrom_normTags {ts : Table LineTag} (cur : LineTag) (line : Nat) (h : tblWf ts = true) :
    tagFrom cur (normTags cur ts) line = tagFrom cur ts line := by
  induction ts generalizing cur with
  | nil => rfl
  | cons e ts ih =>
    obtain ⟨k, t⟩ := e
    have ht : tblWf ts = true := tblWf_sublist (List.sublist_cons_self _ _) h
    unfold normTags
    split
    · rename_i hc
      subst hc
      rw [ih t ht]
      by_cases hk : k ≤ line
      · simp [tagFrom, hk]
      · have hn : ts.filter (fun e => decide (e.1 ≤ line)) = [] := by
          rw [List.filter_eq_nil_iff]
          intro e he
          have := (List.pairwise_cons.1 ((tblWf_iff _).1 h)).1 e he
          simp only at this
          simp only [decide_eq_true_eq]
          omega
        rw [tagFrom_eq t line ht, hn]
        simp [tagFrom, hk, lastTag]
    · simp only [tagFrom, ih t ht]

/-- The tag of a line after the lines `[lo, hi)` have been given one. -/
theorem tagFrom_setTags {tags : Table LineTag} (lo hi : Nat) (t : LineTag) (line : Nat) (h : tblWf tags = true) :
    tagFrom LineTag.initial (setTags tags lo hi t) line =
      if lo ≤ line ∧ line < hi then t else tagFrom LineTag.initial tags line := by
  unfold setTags
  split
  · rename_i hlt
    have hw : tblWf (tags.filter (fun e => decide (e.1 < lo)) ++ [(lo, t), (hi, tagFrom LineTag.initial tags hi)]
        ++ tags.filter (fun e => decide (hi < e.1))) = true := by
      have := tblWf_splice (mid := [(lo, t), (hi, tagFrom LineTag.initial tags hi)]) (lo := lo) (hi := hi + 1) h
        (by simp [tblWf_iff, hlt]) (by omega) (by simp; omega)
      simpa [Nat.succ_le_iff] using this
    rw [tagFrom_normTags _ _ hw, tagFrom_eq _ _ hw, tagFrom_eq _ line h]
    simp only [List.filter_append, List.filter_cons, List.filter_nil, List.filter_filter, lastTag, List.foldl_append]
    by_cases h1 : lo ≤ line
    · by_cases h2 : line < hi
      · have h3 : ¬ hi ≤ line := by omega
        have hn : tags.filter (fun e => decide (e.1 ≤ line) && decide (hi < e.1)) = [] := by
          rw [List.filter_eq_nil_iff]
          intro e _
          simp only [Bool.and_eq_true, decide_eq_true_eq, not_and]
          omega
        simp [h1, h2, h3, hn]
      · have h3 : hi ≤ line := by omega
        have h4 : ¬ (lo ≤ line ∧ line < hi) := fun hk => h2 hk.2
        rw [filter_split ((tblWf_iff _).1 h) h3, tagFrom_eq _ hi h]
        simp [h1, h2, h3, lastTag]
    · have h2 : ¬ hi ≤ line := by omega
      have hn : tags.filter (fun e => decide (e.1 ≤ line) && decide (hi < e.1)) = [] := by
        rw [List.filter_eq_nil_iff]
        intro e _
        simp only [Bool.and_eq_true, decide_eq_true_eq, not_and]
        omega
      have hf : tags.filter (fun e => decide (e.1 ≤ line) && decide (e.1 < lo)) =
          tags.filter (fun e => decide (e.1 ≤ line)) := by
        apply List.filter_congr
        intro x _
        by_cases h3 : x.1 ≤ line
        · have h4 : x.1 < lo := by omega
          simp [h3, h4]
        · simp [h3]
      simp [h1, h2, hn, hf]
  · rename_i hlt
    rw [if_neg (by omega)]

/-! ## The cache -/

theorem cacheKey_line {l h : Nat} (hh : h < 65536) : cacheKey l h / 65536 = l := by
  unfold cacheKey
  omega

theorem cacheKey_hkid {l h : Nat} (hh : h < 65536) : cacheKey l h % 65536 = h := by
  unfold cacheKey
  omega

theorem cacheKey_inj {l m h k : Nat} (hh : h < 65536) (hk : k < 65536) (e : cacheKey l h = cacheKey m k) :
    l = m ∧ h = k := by
  unfold cacheKey at e
  omega

theorem tblGet_dropCache (c : Table CacheEntry) (lo hi hkid l h : Nat) (hh : h < 65536) :
    tblGet (dropCache c lo hi hkid) (cacheKey l h) =
      if lo ≤ l ∧ l < hi ∧ h = hkid then none else tblGet c (cacheKey l h) := by
  have := tblGet_filter c (fun k => !(decide (lo ≤ k / 65536) && decide (k / 65536 < hi) && k % 65536 == hkid))
    (cacheKey l h)
  simp only [cacheKey_line hh, cacheKey_hkid hh] at this
  unfold dropCache
  rw [this]
  by_cases h1 : lo ≤ l <;> by_cases h2 : l < hi <;> by_cases h3 : h = hkid <;> simp [h1, h2, h3]

/-! ## Direct writes leave every other line alone -/

theorem tblGet_zeroCells (cells : List Host.Cell) (a n x : Nat) (h : ¬ (a ≤ x ∧ x < a + n)) :
    tblGet (zeroCells cells a n) x = tblGet cells x := by
  have := tblGet_filter cells (fun k => decide (k < a) || decide (a + n ≤ k)) x
  unfold zeroCells
  rw [this, if_pos]
  simp only [Bool.or_eq_true, decide_eq_true_eq]
  omega

/-- A byte of a line outside the lines zeroed reads as before, under every HKID. -/
theorem readByte_zeroDirect_other {s : State} {hkid a n h x : Nat} (hw : s.mem.wf = true) (hh : h < 65536)
    (hx : ¬ (a / 64 ≤ x / 64 ∧ x / 64 < (a + n) / 64)) (hc : ¬ (a ≤ x ∧ x < a + n)) :
    readByte (zeroDirect s hkid a n) h x = readByte s h x := by
  have ht := ((memory_wf_iff _).1 hw).2.2.1
  have hcache : tblGet (dropCache s.mem.cache (a / 64) ((a + n) / 64) hkid) (cacheKey (x / 64) h) =
      tblGet s.mem.cache (cacheKey (x / 64) h) := by
    rw [tblGet_dropCache _ _ _ _ _ _ hh, if_neg fun hk => hx ⟨hk.1, hk.2.1⟩]
  have htag : tagAt (zeroDirect s hkid a n).mem (x / 64) = tagAt s.mem (x / 64) := by
    show tagFrom LineTag.initial (setTags s.mem.tags _ _ _) _ = _
    rw [tagFrom_setTags _ _ _ _ ht, if_neg hx]
    rfl
  have hview : lineView (zeroDirect s hkid a n) h (x / 64) = lineView s h (x / 64) := by
    simp only [lineView, htag]
    rfl
  have hcell : cellAt (zeroDirect s hkid a n).mem x = cellAt s.mem x := by
    show (tblGet (zeroCells s.mem.cells a n) x).getD 0 = _
    rw [tblGet_zeroCells _ _ _ _ hc]
    rfl
  show (match tblGet (dropCache s.mem.cache (a / 64) ((a + n) / 64) hkid) (cacheKey (x / 64) h) with
    | some e => e.data.getD (x % 64) 0
    | none =>
      match lineView (zeroDirect s hkid a n) h (x / 64) with
      | .data => cellAt (zeroDirect s hkid a n).mem x
      | .zero _ => 0
      | .garbage => Config.garbageByte s.tick x h) = readByte s h x
  rw [hcache, hview, hcell]
  rfl

/-- A byte of a line outside the lines written reads as before, under every HKID. -/
theorem readByte_writeDirect_other {s : State} {hkid a h x : Nat} {bs : List Byte} (hw : s.mem.wf = true)
    (hh : h < 65536) (hx : ¬ (a / 64 ≤ x / 64 ∧ x / 64 < (a + bs.length) / 64))
    (hc : ¬ (a ≤ x ∧ x < a + bs.length)) : readByte (writeDirect s hkid a bs) h x = readByte s h x := by
  have ht := ((memory_wf_iff _).1 hw).2.2.1
  have hcache : tblGet (dropCache s.mem.cache (a / 64) ((a + bs.length) / 64) hkid) (cacheKey (x / 64) h) =
      tblGet s.mem.cache (cacheKey (x / 64) h) := by
    rw [tblGet_dropCache _ _ _ _ _ _ hh, if_neg fun hk => hx ⟨hk.1, hk.2.1⟩]
  have htag : tagAt (writeDirect s hkid a bs).mem (x / 64) = tagAt s.mem (x / 64) := by
    show tagFrom LineTag.initial (setTags s.mem.tags _ _ _) _ = _
    rw [tagFrom_setTags _ _ _ _ ht, if_neg hx]
    rfl
  have hview : lineView (writeDirect s hkid a bs) h (x / 64) = lineView s h (x / 64) := by
    simp only [lineView, htag]
    rfl
  have hcell : cellAt (writeDirect s hkid a bs).mem x = cellAt s.mem x := by
    have := cellAt_writeCells s.mem (setTags s.mem.tags (a / 64) ((a + bs.length) / 64) (writeTag s hkid))
      (dropCache s.mem.cache (a / 64) ((a + bs.length) / 64) hkid)
      (cutStale s.mem.stale a bs.length hkid) a bs x
    rw [if_neg hc] at this
    exact this
  show (match tblGet (dropCache s.mem.cache (a / 64) ((a + bs.length) / 64) hkid) (cacheKey (x / 64) h) with
    | some e => e.data.getD (x % 64) 0
    | none =>
      match lineView (writeDirect s hkid a bs) h (x / 64) with
      | .data => cellAt (writeDirect s hkid a bs).mem x
      | .zero _ => 0
      | .garbage => Config.garbageByte s.tick x h) = readByte s h x
  rw [hcache, hview, hcell]
  rfl

end Sys2Proof.Machine
end

