-- ==== Sys2Proof/Tests/Slice0.lean ====
section
/-! SUPPORT. Tests: ill-formed terms that the checks refuse, leaf numbers written out from the spec's tables, one step
of every function on a small state (expected values from 95_test_vectors.md), and for every statement with hypotheses
a state that meets them. -/

namespace Sys2Proof.Tests

set_option Elab.async false
set_option synthInstance.maxSize 512

open Sys2Proof Sys2Proof.Machine Sys2Proof.Safety

/-! ## Helpers -/

/-- RAX of the current logical processor in the next state. -/
def raxAfter : Outcome → Option Word
  | .next t => some t.lp.gprs.rax
  | _ => none

/-- A test of the next state. -/
def holdsAfter (f : State → Bool) : Outcome → Bool
  | .next t => f t
  | _ => false

/-- The reason of a refusal. -/
def refusalOf : Outcome → Option Refusal
  | .refused e => some e
  | _ => none

/-- A general register of the host in the next state. -/
def outAfter (r : Reg) : Outcome → Option Word
  | .next t => some (t.hreg r)
  | _ => none

/-! ## Well-formedness (R320, R328, R240, R702) -/

theorem test_wellFormed_refuses_wrong_side :
    Instr.wellFormed .tdcall .tdhSysInit = false ∧ Instr.wellFormed .seamcall .tdgVpInfo = false ∧
    Instr.wellFormed .seamcall .tdhSysInit = true ∧ Instr.wellFormed .tdcall .tdgVpInfo = true := by decide

theorem test_lengthOk_refuses : lengthOk 0 = false ∧ lengthOk 16 = false ∧ lengthOk 1 = true ∧ lengthOk 15 = true := by
  decide

/-- A load of RAX by a 3-byte instruction. -/
def loadOf (parts : List MemPart) : GuestOp := .mem [⟨.read .rax, parts⟩] [] 3 false false false

theorem test_guestOp_refuses :
    GuestOp.wellFormed (.ud .rsm ⟨0, 0, 0, 0⟩) = false ∧ GuestOp.wellFormed (.senduipi 3 4096 0) = false ∧
    GuestOp.wellFormed (.controlled .pause ⟨0, 0, 0, 0⟩ [] [] false false) = false ∧
    GuestOp.wellFormed (.movFromCr0 .rax 16) = false ∧ GuestOp.wellFormed (.exception 32 none 0) = false ∧
    GuestOp.wellFormed (.softInt (.int 256) 2) = false ∧ GuestOp.wellFormed (.movToDr 8 .rax 3) = false ∧
    GuestOp.wellFormed (loadOf [⟨0, 4092, 8⟩]) = false ∧ GuestOp.wellFormed (loadOf [⟨0, 0, 9⟩]) = false ∧
    GuestOp.wellFormed (.mem [⟨.update .cmpxchgPair, [⟨0, 0, 12⟩]⟩] [] 3 false false false) = false ∧
    GuestOp.wellFormed (.mem [⟨.update .cmpxchgPair, [⟨0, 0, 16⟩]⟩] [] 3 false false false) = true ∧
    GuestOp.wellFormed (loadOf [⟨2 ^ 64, 0, 8⟩]) = false ∧ GuestOp.wellFormed (loadOf []) = false ∧
    GuestOp.wellFormed (loadOf [⟨4088, 4088, 8⟩]) = true ∧
    GuestOp.wellFormed (loadOf [⟨4092, 4092, 4⟩, ⟨4096, 8192, 4⟩]) = true := by decide

theorem test_event_refuses :
    Event.wellFormed (.externalInterrupt 256) = false ∧ Event.wellFormed (.entryFailure 65536 0) = false ∧
    Event.wellFormed (.busLocked (.externalInterrupt 256)) = false ∧
    Event.wellFormed (.externalInterrupt 255) = true := by decide

theorem test_hostOp_refuses :
    HostOp.wellFormed Platform.reference (.setDr 4 0) = false ∧
    HostOp.wellFormed Platform.reference (.setCr 2 0) = false ∧
    HostOp.wellFormed Platform.reference (.setSeg 8 ⟨0, 0, 0, 0⟩) = false ∧
    HostOp.wellFormed Platform.reference (.memRead .rax 0x3FFFFFFFFFFC) = false ∧
    HostOp.wellFormed Platform.reference (.memWrite 0x3FFFFFFFFFFC [1, 2, 3, 4, 5]) = false ∧
    HostOp.wellFormed Platform.reference (.clflush 0x400000000000) = false ∧
    HostOp.wellFormed Platform.reference (.pconfig 64 true) = false ∧
    HostOp.wellFormed Platform.reference (.memRead .rax 0x80000000) = true := by decide

/-- The host's own steps never touch memory with a private HKID or SEAMRR (R240, D61). -/
theorem test_hostAddressOk : hostAddressOk Platform.reference 0x200100000000 8 = false ∧
    hostAddressOk Platform.reference 0x40000000 8 = false ∧ hostAddressOk Platform.reference 0x80000000 8 = true ∧
    refusalOf (hostStep State.reset (.memWrite 0x200100000000 [1])) = some .notTheHosts := by decide

theorem test_envOp_refuses :
    EnvOp.wellFormed State.reset (.advanceTsc (2 ^ 64)) = false ∧
    EnvOp.wellFormed State.reset (.advanceTsc 0) = false ∧
    EnvOp.wellFormed State.reset (.setIntrPending 4 none) = false ∧
    EnvOp.wellFormed State.reset (.dmaRead 0x3FFFFFFFFFFF 2) = false ∧
    EnvOp.wellFormed State.reset (.evict 0 65536) = false ∧
    EnvOp.wellFormed State.reset (.moduleStore 0 65536 0) = false := by decide

theorem test_label_refuses :
    Label.wellFormed State.reset (.call 4) = false ∧ Label.wellFormed State.reset (.guest 4 .cpuid) = false ∧
    Label.wellFormed State.reset (.event 0 (.externalInterrupt 256)) = false ∧
    Label.wellFormed State.reset (.host 0 (.setDr 5 0)) = false ∧ Label.wellFormed State.reset (.call 3) = true := by
  decide

theorem test_platform_refuses :
    Platform.wellFormed { Platform.reference with maxPa := 53 } = false ∧
    Platform.wellFormed { Platform.reference with numTdxPrivKids := 0 } = false ∧
    Platform.wellFormed { Platform.reference with lps := [] } = false ∧
    Platform.wellFormed { Platform.reference with seamcallLength := 16 } = false ∧
    Platform.wellFormed { Platform.reference with epfThreshold := 0 } = false ∧
    Platform.wellFormed { Platform.reference with cmrs := [(0, 4096), (0, 4096)] } = false ∧
    Platform.wellFormed { Platform.reference with cmrs := [(0, 4095)] } = false ∧
    Platform.wellFormed { Platform.reference with cr0Fixed0 := 2 } = false ∧
    Platform.wellFormed { Platform.reference with steppings := [] } = false ∧
    Platform.wellFormed { Platform.reference with tdmrInitChunk := 0 } = false ∧
    Platform.wellFormed { Platform.reference with maxReservedPerTdmr := 29 } = false ∧
    Platform.wellFormed { Platform.reference with platformOk := some ⟨Status.inconsistentMsr, 0, []⟩ } = false ∧
    Platform.wellFormed { Platform.reference with platformLpOk := [(0, ⟨Status.smrrNotLocked, 0, []⟩)] } = false ∧
    Platform.wellFormed { Platform.reference with msrBitmapTdcx := 4 } = false ∧
    Platform.wellFormed { Platform.reference with msrBitmapTdcx := 3 } = false ∧
    Platform.wellFormed { Platform.reference with vapicPage := 4 } = false ∧
    Platform.wellFormed { Platform.reference with statusEpfEntryRefused := 0x200 } = false ∧
    Platform.wellFormed { Platform.reference with statusEpfEntryRefused := 0x180000000 } = false ∧
    Platform.wellFormed { Platform.reference with statusSysConfigNotPending := 0x504 } = false ∧
    Platform.wellFormed { Platform.reference with statusKeyGenerationFailed := 0xC0000800 } = false ∧
    Platform.wellFormed { Platform.reference with numCpuidValues := 47 } = false ∧
    Platform.wellFormed { Platform.reference with mrtdContextCode := some 0xFFFFFFFF } = false ∧
    Platform.wellFormed Platform.reference = true := by decide

/-- The bounds of R392 and 93_implementation_defined.md section 1.2. -/
theorem test_sysInfo_bounds :
    Platform.sysInfoOk { Platform.reference with moduleAttributes := 1 } = false ∧
    Platform.sysInfoOk { Platform.reference with vendorId := 0x1022 } = false ∧
    Platform.sysInfoOk { Platform.reference with tdcsBaseSize := 16385 } = false ∧
    Platform.sysInfoOk { Platform.reference with attributesFixed0 := 2 } = false ∧
    Platform.sysInfoOk { Platform.reference with attributesFixed1 := 0x80000000 } = false ∧
    Platform.sysInfoOk { Platform.reference with xfamFixed0 := 0x407 } = false ∧
    Platform.sysInfoOk { Platform.reference with xfamFixed1 := 1 } = false ∧
    Platform.sysInfoOk { Platform.reference with cpuidConfig := List.replicate 38 ⟨0, none, ⟨0, 0, 0, 0⟩⟩ } = false := by
  decide

/-! ## Leaf numbers, copied from Tables 22.4 and 22.183 (30_encoding.md) as values of RAX -/

theorem test_decode_vp :
    decode .seamcall 0x0000000000000000 = .ok .tdhVpEnter ∧ decode .seamcall 0x0000000000000004 = .ok .tdhVpAddcx ∧
    decode .seamcall 0x000000000000000A = .ok .tdhVpCreate ∧ decode .seamcall 0x0000000000000012 = .ok .tdhVpFlush ∧
    decode .seamcall 0x0000000000000016 = .ok .tdhVpInit ∧ decode .seamcall 0x000000000000001A = .ok .tdhVpRd ∧
    decode .seamcall 0x000000000000002B = .ok .tdhVpWr := by decide

theorem test_decode_mng :
    decode .seamcall 0x0000000000000001 = .ok .tdhMngAddcx ∧
    decode .seamcall 0x0000000000000008 = .ok .tdhMngKeyConfig ∧
    decode .seamcall 0x0000000000000009 = .ok .tdhMngCreate ∧ decode .seamcall 0x000000000000000B = .ok .tdhMngRd ∧
    decode .seamcall 0x000000000000000D = .ok .tdhMngWr ∧
    decode .seamcall 0x0000000000000013 = .ok .tdhMngVpflushdone ∧
    decode .seamcall 0x0000000000000014 = .ok .tdhMngKeyFreeid ∧
    decode .seamcall 0x0000000000000015 = .ok .tdhMngInit ∧
    decode .seamcall 0x000000000000001B = .ok .tdhMngKeyReclaimid ∧
    decode .seamcall 0x0000000000000010 = .ok .tdhMrExtend ∧
    decode .seamcall 0x0000000000000011 = .ok .tdhMrFinalize := by decide

theorem test_decode_mem :
    decode .seamcall 0x0000000000000002 = .ok .tdhMemPageAdd ∧ decode .seamcall 0x0000000000000003 = .ok .tdhMemSeptAdd ∧
    decode .seamcall 0x0000000000000005 = .ok .tdhMemPageRelocate ∧
    decode .seamcall 0x0000000000000006 = .ok .tdhMemPageAug ∧
    decode .seamcall 0x0000000000000007 = .ok .tdhMemRangeBlock ∧ decode .seamcall 0x000000000000000C = .ok .tdhMemRd ∧
    decode .seamcall 0x000000000000000E = .ok .tdhMemWr ∧ decode .seamcall 0x000000000000000F = .ok .tdhMemPageDemote ∧
    decode .seamcall 0x0000000000000017 = .ok .tdhMemPagePromote ∧
    decode .seamcall 0x0000000000000019 = .ok .tdhMemSeptRd ∧
    decode .seamcall 0x000000000000001D = .ok .tdhMemPageRemove ∧
    decode .seamcall 0x000000000000001E = .ok .tdhMemSeptRemove ∧ decode .seamcall 0x0000000000000026 = .ok .tdhMemTrack ∧
    decode .seamcall 0x0000000000000027 = .ok .tdhMemRangeUnblock := by decide

theorem test_decode_sys_and_phymem :
    decode .seamcall 0x0000000000000018 = .ok .tdhPhymemPageRdmd ∧
    decode .seamcall 0x000000000000001C = .ok .tdhPhymemPageReclaim ∧
    decode .seamcall 0x000000000000001F = .ok .tdhSysKeyConfig ∧ decode .seamcall 0x0000000000000020 = .ok .tdhSysInfo ∧
    decode .seamcall 0x0000000000000021 = .ok .tdhSysInit ∧ decode .seamcall 0x0000000000000023 = .ok .tdhSysLpInit ∧
    decode .seamcall 0x0000000000000024 = .ok .tdhSysTdmrInit ∧
    decode .seamcall 0x0000000000000028 = .ok .tdhPhymemCacheWb ∧
    decode .seamcall 0x0000000000000029 = .ok .tdhPhymemPageWbinvd ∧
    decode .seamcall 0x000000000000002C = .ok .tdhSysLpShutdown ∧
    decode .seamcall 0x000000000000002D = .ok .tdhSysConfig := by decide

theorem test_decode_tdg :
    decode .tdcall 0x0000000000000000 = .ok .tdgVpVmcall ∧ decode .tdcall 0x0000000000000001 = .ok .tdgVpInfo ∧
    decode .tdcall 0x0000000000000002 = .ok .tdgMrRtmrExtend ∧ decode .tdcall 0x0000000000000003 = .ok .tdgVpVeinfoGet ∧
    decode .tdcall 0x0000000000000004 = .ok .tdgMrReport ∧ decode .tdcall 0x0000000000000005 = .ok .tdgVpCpuidveSet ∧
    decode .tdcall 0x0000000000000006 = .ok .tdgMemPageAccept ∧ decode .tdcall 0x0000000000000007 = .ok .tdgVmRd ∧
    decode .tdcall 0x0000000000000008 = .ok .tdgVmWr := by decide

/-- V1, V4: the numbers that are not in the table, and bits above 31. -/
theorem test_decode_refuses :
    decode .seamcall 34 = .error (.unsupportedLeaf .seamcall 34) ∧
    decode .seamcall 37 = .error (.unsupportedLeaf .seamcall 37) ∧
    decode .seamcall 42 = .error (.unsupportedLeaf .seamcall 42) ∧
    decode .seamcall 0x100000009 = .error (.unsupportedLeaf .seamcall 0x100000009) ∧
    decode .tdcall 9 = .error (.unsupportedLeaf .tdcall 9) ∧
    decodeBytes .tdcall [1, 0, 0] = .error (.truncated 3) := by decide

theorem test_bytes_of_rax :
    decodeBytes .seamcall [0x2D, 0, 0, 0, 0, 0, 0, 0, 0xFF] = .ok (.tdhSysConfig, [0xFF]) ∧
    encodeBytes .tdhVpWr = [0x2B, 0, 0, 0, 0, 0, 0, 0] ∧ encode .tdgVmWr = 8 := by decide

/-! ## The states of the tests: the reference platform of 95_test_vectors.md, section 0 -/

/-- TDR0. -/
abbrev T : Nat := 0x100000000

/-- TDVPR0. -/
abbrev V : Nat := 0x100020000

/-- The TDMR of program P0, fully initialised. -/
def tdmr : Tdmr :=
  { base := 0x100000000, size := 0x80000000, pamt1gBase := 0x17F804000, pamt1gSize := 0x1000, pamt2mBase := 0x17F800000,
    pamt2mSize := 0x4000, pamt4kBase := 0x17F000000, pamt4kSize := 0x800000, reserved := [(0x7F000000, 0x1000000)],
    next := 0x180000000 }

/-- The TDR of program P2. -/
def tdr : Tdr :=
  { init := true, fatal := false, numTdcx := 4, tdcxPa := [0x100001000, 0x100002000, 0x100003000, 0x100004000],
    chldcnt := 14, lifecycle := .keysConfigured, hkid := 33, pkgConfigBitmap := 3 }

/-- The TDCS of program P2 before TDH.MR.FINALIZE, at TD epoch 3. -/
def tdcs : Tdcs :=
  { finalized := false, numVcpus := 0, numAssocVcpus := 0, attributes := 0, xfam := 3, maxVcpus := 1, gpaw := false,
    eptp := 0x10000401E, tscOffset := 0, tscMultiplier := 0x800000000000, tscFrequency := 40, notifyEnables := 0,
    cpuidValues := [⟨0, 0, 0, 0⟩, ⟨0x806F8, 0, 0, 0⟩], xbuffOffsets := [], tdEpoch := 3, refcount0 := 0, refcount1 := 0,
    mrtd := List.replicate 48 0, mrconfigid := List.replicate 48 0, mrowner := List.replicate 48 0,
    mrownerconfig := List.replicate 48 0, rtmr := List.replicate 4 (List.replicate 48 0), mrtdContext := ShaCtx.init,
    msrBitmaps := [] }

/-- The VCPU with all its pages, not initialised. -/
def vcpu : Tdvps :=
  { Tdvps.created V with numTdvpx := 3, pagePa := [V, 0x100021000, 0x100022000, 0x100023000] }

/-- The VCPU ready to enter, associated with logical processor 2. -/
def readyVcpu : Tdvps :=
  { vcpu with vcpuState := .readyAsync, assocLpid := some 2, assocHkid := 33, xfam := 3,
              xbuff := [(65, 0x8000000000000003)] }

/-- The VCPU that runs in 64-bit mode at CPL 0 with CR4.OSXSAVE. -/
def runningVcpu (rs : List (Reg × Word)) : Tdvps :=
  { readyVcpu with vcpuState := .active, launched := true, vcpuEpoch := 3, xcr0 := 1, gprs := Gprs.zero.setAll rs
                   vmcs := [(0x2806, 0xD01), (0x4816, 0xA09B), (0x6800, 0x80000021), (0x6804, 0x42060), (0x681E, 0x1000),
                     (0x6820, 2)] }

/-- The Secure EPT of program P2 without its level-0 entries: the root in C3, then D1, D2 and D4, D3 and D5. -/
def tree : Table SeptEntry :=
  [(0x100004000, ⟨.present, false, 0x100010000⟩), (0x100010000, ⟨.present, false, 0x100011000⟩),
   (0x100010018, ⟨.present, false, 0x100013000⟩), (0x100011000, ⟨.present, false, 0x100012000⟩),
   (0x100013FF8, ⟨.present, false, 0x100014000⟩)]

/-- The same with PG0 at GPA 0xFFFFF000 (D5 entry 511) in a state. -/
def treeWith (x : SeptState) : Table SeptEntry := tblSet tree 0x100014FF8 ⟨x, true, 0x100100000⟩

/-- The PAMT entries of the TD's pages. -/
def pamt : Table PamtEntry :=
  [(T, ⟨.tdr, 0, 0⟩), (0x100001000, ⟨.tdcx, T, 0⟩), (0x100002000, ⟨.tdcx, T, 0⟩), (0x100003000, ⟨.tdcx, T, 0⟩),
   (0x100004000, ⟨.tdcx, T, 0⟩), (0x100010000, ⟨.ept, T, 0⟩), (0x100011000, ⟨.ept, T, 0⟩), (0x100012000, ⟨.ept, T, 1⟩),
   (0x100013000, ⟨.ept, T, 0⟩), (0x100014000, ⟨.ept, T, 0⟩), (V, ⟨.tdvpr, T, 0⟩), (0x100021000, ⟨.tdvpx, T, 0⟩),
   (0x100022000, ⟨.tdvpx, T, 0⟩), (0x100023000, ⟨.tdvpx, T, 0⟩), (0x100100000, ⟨.reg, T, 1⟩)]

/-- Four logical processors, initialised, the one called with operands in its registers. -/
def lpsWith (lp : Nat) (rs : List (Reg × Word)) : List Lp :=
  (List.replicate 4 { Lp.reset with initDone := true }).modify lp fun l => { l with gprs := Gprs.zero.setAll rs }

/-- The state after program P0: SYS_READY, no TD. Every line was last written under one private key, which stands in for
the keys of HKIDs 32 and 33. -/
def ready (rs : List (Reg × Word)) : State :=
  { State.reset with
    lps := lpsWith 0 rs, sysState := .sysReady, pkgConfigBitmap := 3, globalHkid := 32, tdmrs := [tdmr]
    kot := initialKot Platform.reference 32
    ket := [(32, ⟨.module, 1, true⟩), (33, ⟨.td T, 1, true⟩), (65568, ⟨.module, 1, true⟩), (65569, ⟨.td T, 1, true⟩)]
    mem := ⟨[], [(0, ⟨1, true, false⟩)], [], []⟩ }

/-- The state of program P2 before TDH.MR.FINALIZE, PG0 mapped in the given state, with operands on logical
processor 0. -/
def built (rs : List (Reg × Word)) (x : SeptState) : State :=
  { ready rs with kot := tblSet (initialKot Platform.reference 32) 33 ⟨.assigned, []⟩, tdrs := [(T, tdr)],
                  tdcss := [(T, tdcs)], vps := [(V, vcpu)], pamt4k := pamt, sept := treeWith x }

/-- The same state with another TDR. -/
def withTdr (s : State) (f : Tdr → Tdr) : State := s.modTdr T f

/-- The same state with another TDCS. -/
def withTdcs (s : State) (f : Tdcs → Tdcs) : State := s.modTdcs T f

/-- The same calls on logical processor 2, whose VCPU is given. -/
def onLp2 (rs : List (Reg × Word)) (p : Tdvps) : State :=
  { withTdcs (built [] .present) (fun c => { c with finalized := true, numVcpus := 1, numAssocVcpus := 1 }) with
    curLp := 2, lps := lpsWith 2 rs, vps := [(V, p)] }

/-- The VCPU runs on logical processor 2, with operands in the guest's registers. -/
def guest (rs : List (Reg × Word)) : State :=
  let s := withTdcs (onLp2 [] (runningVcpu rs)) fun c => { c with refcount1 := 1 }
  { s with locks := entryLocks [] V T }.modLp fun l => { l with curVcpu := some V, lastVcpu := some V }

/-! ## TDH.SYS.* (V60 to V77) -/

theorem witness_SysInitFunctionsComplete_init :
    HostCalls State.reset ∧ Takable State.reset .sys ∧ State.reset.sysState = .sysinitPending ∧
    State.reset.hreg .rcx = 0 ∧ bit State.reset.lp.miscEnable 22 = false ∧
    State.reset.plat.archCapabilities &&& 0x16B = 0x16B ∧ State.reset.plat.platformOk = none := by decide +kernel

/-- SYSINIT_DONE, no logical processor initialised. -/
def initDone : State := { State.reset with sysState := .sysinitDone }

theorem witness_SysInitFunctionsComplete_lp :
    HostCalls initDone ∧ Sharable initDone .sys ∧ initDone.sysState ≠ .sysShutdown ∧
    initDone.sysState ≠ .sysinitPending ∧ initDone.lp.initDone = false ∧ bit initDone.lp.miscEnable 22 = false ∧
    initDone.plat.archCapabilities &&& 0x16B = 0x16B ∧
    initDone.lp.tscAdjust = initDone.sampledTscAdjust ∧ tblGet initDone.plat.platformLpOk initDone.curLp = none := by
  decide +kernel

theorem test_sysInit : raxAfter (exec .tdhSysInit State.reset) = some 0 ∧
    holdsAfter (fun t => t.sysState == .sysinitDone) (exec .tdhSysInit State.reset) = true ∧
    raxAfter (exec .tdhSysInit initDone) = some 0xC000050000000000 := by decide +kernel

/-- R647: a CPU that does not enumerate what the module relies on is refused. -/
theorem test_sysInit_archCapabilities :
    raxAfter (exec .tdhSysInit { State.reset with plat := { Platform.reference with archCapabilities := 0x16A } })
      ≠ some 0 := by decide +kernel

theorem test_sysLpInit : raxAfter (exec .tdhSysLpInit initDone) = some 0 ∧
    raxAfter (exec .tdhSysLpInit State.reset) = some 0xC000050100000000 ∧
    raxAfter (exec .tdhSysLpInit (ready [])) = some 0xC000050300000000 := by decide +kernel

/-- R488: INVEPT has been done when a platform check fails. -/
theorem test_sysLpInit_flushes :
    holdsAfter (fun t => t.lp.tlb.isEmpty && !t.lp.initDone && bit t.lp.gprs.rax 63)
      (exec .tdhSysLpInit (initDone.modLp fun l =>
        { l with tscAdjust := 1, tlb := [⟨0x100004000, 1, 0, 0, 0, 0, 0, true, false, 7⟩] })) = true := by decide +kernel

/-- TDH.SYS.INFO at the smallest buffers. -/
def infoCall (r9 : Word) : State := ready [(.rcx, 0x80000000), (.rdx, 1024), (.r8, 0x80000400), (.r9, r9)]

theorem witness_SysInfoCompletes :
    HostCalls (infoCall 32) ∧ (infoCall 32).sysState ≠ .sysShutdown ∧ (infoCall 32).sysState ≠ .sysinitPending ∧
    (infoCall 32).lp.initDone = true ∧ SharedOperand (infoCall 32) ((infoCall 32).hreg .rcx) 1024 ∧
    SharedOperand (infoCall 32) ((infoCall 32).hreg .r8) 512 ∧ 1024 ≤ ((infoCall 32).hreg .rdx).toNat ∧
    32 ≤ ((infoCall 32).hreg .r9).toNat ∧ SharedBacked (infoCall 32) ((infoCall 32).hreg .rcx) 1024 ∧
    SharedBacked (infoCall 32) ((infoCall 32).hreg .r8) 512 := by decide +kernel

theorem test_sysInfo : raxAfter (exec .tdhSysInfo (infoCall 4)) = some 0xC000010000000009 ∧
    outAfter .rdx (exec .tdhSysInfo (infoCall 4)) = some 0 := by decide +kernel

/-- The TDMR of program P0 before TDH.SYS.TDMR.INIT. -/
def rawTdmr : Tdmr := { tdmr with next := 0x100000000 }

/-- The pointer array at 0x80000800 and the TDMR_INFO of program P0 at 0x80000A00, in lines that the host has written. -/
def configCache : Table CacheEntry :=
  [(cacheKey 0x2000020 0, ⟨padTo 64 (leBytes 8 0x80000A00), true, false, 0⟩),
   (cacheKey 0x2000028 0, ⟨leBytes 8 0x100000000 ++ leBytes 8 0x80000000 ++ leBytes 8 0x17F804000 ++ leBytes 8 0x1000 ++
      leBytes 8 0x17F800000 ++ leBytes 8 0x4000 ++ leBytes 8 0x17F000000 ++ leBytes 8 0x800000, true, false, 0⟩),
   (cacheKey 0x2000029 0, ⟨padTo 64 (leBytes 8 0x7F000000 ++ leBytes 8 0x1000000), true, false, 0⟩)]

/-- TDH.SYS.CONFIG of program P0. -/
def configCall (r8 : Word) : State :=
  { ready [(.rcx, 0x80000800), (.rdx, 1), (.r8, r8)] with
    sysState := .sysinitDone, mem := ⟨[], [(0, ⟨1, true, false⟩)], configCache, []⟩ }

theorem witness_SysConfigCompletes : ∀ n ∈ [32, 63], let s := configCall (w64 n)
    HostCalls s ∧ Takable s .sys ∧ s.sysState = .sysinitDone ∧ (∀ l ∈ s.lps, l.initDone = true) ∧
    1 ≤ (s.hreg .rdx).toNat ∧
    (s.hreg .rdx).toNat ≤ min 64 s.plat.maxTdmrs ∧ SharedOperand s (s.hreg .rcx) 512 ∧
    SharedReadable s (s.hreg .rcx) (8 * (s.hreg .rdx).toNat) ∧
    checkTdmrs s 0 0 ((bytesWords (s.hreg .rdx).toNat
      (sharedBytes s (s.hreg .rcx).toNat (8 * (s.hreg .rdx).toNat))).map BitVec.toNat) = .ok [rawTdmr] ∧
    checkOverlaps [rawTdmr] (allPamtAreas 0 [rawTdmr]) = .ok () ∧ checkCmrs s.plat 0 [rawTdmr] = .ok () ∧
    checkPamtCmrs s.plat (allPamtAreas 0 [rawTdmr]) = .ok () ∧ bitsOf (s.hreg .r8) 63 16 = 0 ∧
    inPrivateRange s.plat (bitsOf (s.hreg .r8) 15 0) = true := by decide +kernel

theorem test_sysConfig : raxAfter (exec .tdhSysConfig (configCall 32)) = some 0 ∧
    raxAfter (exec .tdhSysConfig (configCall 31)) = some 0xC000010000000008 ∧
    raxAfter (exec .tdhSysConfig initDone) = some 0xC000050400000000 := by decide +kernel

/-- TDH.SYS.KEY.CONFIG on a logical processor, with the bitmap so far. -/
def keyCall (lp : Nat) (bm : Word) : State :=
  { ready [] with curLp := lp, sysState := .sysconfigDone, pkgConfigBitmap := bm, ket := [(32, ⟨.module, 1, true⟩)] }

theorem witness_SysKeyConfigCompletes_first : let s := keyCall 0 0
    HostCalls s ∧ Takable s .sys ∧ Takable s (.ket s.pkg) ∧ s.sysState = .sysconfigDone ∧
    bit s.pkgConfigBitmap s.pkg = false ∧ s.entropyOk = true ∧
    ∀ k ∈ s.plat.packages, bit s.pkgConfigBitmap k = false := by decide +kernel

theorem witness_SysKeyConfigCompletes_next : let s := keyCall 2 1
    HostCalls s ∧ Takable s .sys ∧ Takable s (.ket s.pkg) ∧ s.sysState = .sysconfigDone ∧
    bit s.pkgConfigBitmap s.pkg = false ∧ s.entropyOk = true ∧
    s.plat.packages.find? (fun j => bit s.pkgConfigBitmap j) = some 0 := by decide +kernel

theorem test_sysKeyConfig : raxAfter (exec .tdhSysKeyConfig (keyCall 1 1)) = some 0x0000081500000000 ∧
    holdsAfter (fun t => t.sysState == .sysReady && (ketAt t 1 32).key == 1) (exec .tdhSysKeyConfig (keyCall 2 1))
      = true := by decide +kernel

/-- TDH.SYS.TDMR.INIT with the TDMR's next address. -/
def tdmrCall (next : Nat) : State := { ready [(.rcx, 0x100000000)] with tdmrs := [{ tdmr with next := next }] }

theorem witness_SysTdmrInitCompletes : let s := tdmrCall 0x140000000
    HostReady s ∧ isAligned (s.hreg .rcx).toNat (2 ^ 30) = true ∧ (s.hreg .rcx).toNat < 2 ^ s.plat.addrBits ∧
    s.tdmrs.findIdx? (fun t => t.base == (s.hreg .rcx).toNat) = some 0 ∧
    s.tdmrs[0]? = some { tdmr with next := 0x140000000 } ∧ Takable s (.tdmr 0) ∧
    0x140000000 ≠ tdmr.base + tdmr.size ∧ pamtRegionHeld s.locks 0x140000000
      (min (0x140000000 + 4096 * max s.plat.tdmrInitChunk 1) (tdmr.base + tdmr.size)) = false := by decide +kernel

theorem test_sysTdmrInit : outAfter .rdx (exec .tdhSysTdmrInit (tdmrCall 0x100000000)) = some 0x140000000 ∧
    outAfter .rdx (exec .tdhSysTdmrInit (tdmrCall 0x140000000)) = some 0x180000000 ∧
    raxAfter (exec .tdhSysTdmrInit (tdmrCall 0x180000000)) = some 0x00000A0300000000 := by decide +kernel

/-- R490 step 4.3: a chunk inside a 2MB page writes PAMT_4K entries only, one that begins at a 1GB page entries of every
level: the lines at which the written tag begins and ends. -/
theorem test_zeroPamtLines :
    let t0 : Tdmr := { tdmr with pamt4kBase := 0x1000, pamt2mBase := 0x2000, pamt1gBase := 0x3000 }
    let changes (lo hi : Nat) : List Nat := (initPamt State.reset t0 lo hi).mem.tags.map fun e => e.1 * 64
    changes 0x100004000 0x100008000 = [0x1040, 0x1080] ∧
    changes 0x100000000 0x100004000 = [0x1000, 0x1040, 0x2000, 0x2040, 0x3000, 0x3040] := by decide +kernel

/-- R49: a page of the region locked by another function makes the call busy. -/
theorem test_sysTdmrInit_busy :
    holdsAfter (fun t => t.lp.gprs.rax >>> 32 == 0x80000200)
      (exec .tdhSysTdmrInit { tdmrCall 0x140000000 with locks := [(.pamt4k 0x140003000, .shared 1)] }) = true := by
  decide +kernel

theorem witness_SysLpShutdownRule : HostCalls State.reset ∧ lockState State.reset.locks .sys ≠ some .exclusive ∧
    HostCalls { State.reset with locks := [(.sys, .exclusive)] } ∧
    lockState [(LockId.sys, LockState.exclusive)] .sys = some .exclusive := by decide +kernel

theorem test_sysLpShutdown : raxAfter (exec .tdhSysLpShutdown (ready [])) = some 0 ∧
    holdsAfter (fun t => t.sysState == .sysShutdown && t.lp.seamcallBlocked) (exec .tdhSysLpShutdown (ready [])) = true ∧
    raxAfter (exec .tdhSysInfo { ready [] with sysState := .sysShutdown }) = some 0xC000050600000000 := by
  decide +kernel

/-! ## TDH.MNG.* and TDH.MR.* (V80 to V105) -/

/-- TDH.MNG.CREATE of a TD at TDR0. -/
def createCall (rdx : Word) : State := ready [(.rcx, 0x100000000), (.rdx, rdx)]

theorem witness_MngCreateAddcxComplete_create : ∀ h ∈ [33, 63], let s := createCall (w64 h)
    HostReady s ∧ OpaqueOperand s (s.hreg .rcx) 4096 ∧ PageTakable s (s.hreg .rcx).toNat ∧ Takable s .kot ∧
    bitsOf (s.hreg .rdx) 63 16 = 0 ∧
    pageFree s (s.hreg .rcx).toNat 0 = true ∧ inPrivateRange s.plat (bitsOf (s.hreg .rdx) 15 0) = true ∧
    (kotAt s (bitsOf (s.hreg .rdx) 15 0)).state = .free := by decide +kernel

theorem test_mngCreate : raxAfter (exec .tdhMngCreate (createCall 33)) = some 0 ∧
    holdsAfter (fun t => pageIs t T 0 .tdr && (kotAt t 33).state == .assigned) (exec .tdhMngCreate (createCall 33)) = true ∧
    raxAfter (exec .tdhMngCreate (createCall 32)) = some 0xC000082000000000 ∧
    raxAfter (exec .tdhMngCreate (createCall 31)) = some 0xC000010000000002 ∧
    raxAfter (exec .tdhMngCreate (ready [(.rcx, 0x200000000), (.rdx, 33)])) = some 0xC000010100000001 := by
  decide +kernel

/-- The TDR before its last TDCX page. -/
def rawTdr : Tdr := { tdr with init := false, numTdcx := 3, tdcxPa := [0x100001000, 0x100002000, 0x100003000], chldcnt := 3 }

/-- A TD that TDH.MNG.INIT has not initialised. -/
def raw (rs : List (Reg × Word)) (t : Tdr) : State :=
  { ready rs with kot := tblSet (initialKot Platform.reference 32) 33 ⟨.assigned, []⟩, tdrs := [(T, t)],
                  pamt4k := [(T, ⟨.tdr, 0, 0⟩)] }

/-- TDH.MNG.ADDCX of C3. -/
def addcxCall (t : Tdr) : State := raw [(.rcx, 0x100004000), (.rdx, 0x100000000)] t

theorem witness_MngCreateAddcxComplete_addcx : let s := addcxCall rawTdr
    HostReady s ∧ OpaqueOperand s (s.hreg .rdx) 4096 ∧ PageTakable s (s.hreg .rdx).toNat ∧
    TdrPage s (s.hreg .rdx).toNat rawTdr ∧
    FreePage s (s.hreg .rcx) 0 (s.hreg .rdx).toNat ∧ rawTdr.fatal = false ∧ rawTdr.init = false ∧
    rawTdr.numTdcx < s.plat.tdcsBaseSize / 4096 ∧ rawTdr.lifecycle = .keysConfigured := by decide +kernel

theorem test_mngAddcx : raxAfter (exec .tdhMngAddcx (addcxCall rawTdr)) = some 0 ∧
    raxAfter (exec .tdhMngAddcx (addcxCall { rawTdr with numTdcx := 4 })) = some 0xC000061000000000 ∧
    raxAfter (exec .tdhMngAddcx (addcxCall { rawTdr with lifecycle := .hkidAssigned })) = some 0x8000081000000000 := by
  decide +kernel

/-- The TDR of a TD just created. -/
def newTdr (bm : Word) : Tdr := { Tdr.created 33 with pkgConfigBitmap := bm }

/-- TDH.MNG.KEY.CONFIG on a logical processor. -/
def tdKeyCall (lp : Nat) (bm : Word) : State :=
  { raw [] (newTdr bm) with curLp := lp, lps := lpsWith lp [(.rcx, 0x100000000)] }

theorem witness_MngKeyConfigCompletes_first : let s := tdKeyCall 0 0
    HostReady s ∧ OpaqueOperand s (s.hreg .rcx) 4096 ∧ PageTakable s (s.hreg .rcx).toNat ∧ Takable s (.ket s.pkg) ∧
    TdrPage s (s.hreg .rcx).toNat (newTdr 0) ∧
    (newTdr 0).fatal = false ∧ (newTdr 0).lifecycle = .hkidAssigned ∧ bit (newTdr 0).pkgConfigBitmap s.pkg = false ∧
    s.entropyOk = true ∧ ∀ k ∈ s.plat.packages, bit (newTdr 0).pkgConfigBitmap k = false := by decide +kernel

theorem witness_MngKeyConfigCompletes_next : let s := tdKeyCall 2 1
    HostReady s ∧ OpaqueOperand s (s.hreg .rcx) 4096 ∧ PageTakable s (s.hreg .rcx).toNat ∧ Takable s (.ket s.pkg) ∧
    TdrPage s (s.hreg .rcx).toNat (newTdr 1) ∧
    (newTdr 1).fatal = false ∧ (newTdr 1).lifecycle = .hkidAssigned ∧ bit (newTdr 1).pkgConfigBitmap s.pkg = false ∧
    s.entropyOk = true ∧ s.plat.packages.find? (fun j => bit (newTdr 1).pkgConfigBitmap j) = some 0 := by decide +kernel

theorem test_mngKeyConfig : raxAfter (exec .tdhMngKeyConfig (tdKeyCall 1 1)) = some 0x0000081500000000 ∧
    holdsAfter (fun t => (tblGet t.tdrs T).any fun t => t.lifecycle == .keysConfigured)
      (exec .tdhMngKeyConfig (tdKeyCall 2 1)) = true := by decide +kernel

/-- The TD_PARAMS of program P1 with the lowest TSC frequency. -/
def params : TdParams :=
  { attributes := 0, xfam := 3, maxVcpus := 1, eptpControls := 0x1E, execControls := 0, tscFrequency := 4,
    mrconfigid := List.replicate 48 0, mrowner := List.replicate 48 0, mrownerconfig := List.replicate 48 0,
    cpuid := List.replicate 4 ⟨0, 0, 0, 0⟩, reservedZero := true }

/-- A build that reports only the leaves whose masks no CPU's own value narrows: those of leaf 4 (R688). -/
def leaf4Platform : Platform :=
  { Platform.reference with cpuidConfig := Platform.reference.cpuidConfig.filter fun e => e.leaf == 4 }

/-- TDH.MNG.INIT on that build, the first line of TD_PARAMS written by the host, with the given TSC_FREQUENCY. -/
def initCall (freq : Nat) (t : Tdr) : State :=
  { raw [(.rcx, 0x100000000), (.rdx, 0x80001000)] t with
    plat := leaf4Platform
    mem := ⟨[], [(0, ⟨1, true, false⟩)], [(cacheKey 0x2000040 0,
      ⟨padTo 64 (leBytes 8 0 ++ leBytes 8 3 ++ leBytes 8 1 ++ leBytes 8 0x1E ++ leBytes 8 0 ++ leBytes 2 freq), true, false, 0⟩)], []⟩ }

/-- The TDR with its four TDCX pages. -/
def fullTdr : Tdr := { tdr with init := false, chldcnt := 4 }

theorem witness_MngInitCompletes : let s := initCall 4 fullTdr
    HostReady s ∧ OpaqueOperand s (s.hreg .rcx) 4096 ∧ PageTakable s (s.hreg .rcx).toNat ∧
    SharedOperand s (s.hreg .rdx) 1024 ∧
    SharedReadable s (s.hreg .rdx) 1024 ∧ TdrPage s (s.hreg .rcx).toNat fullTdr ∧ fullTdr.fatal = false ∧
    fullTdr.init = false ∧ fullTdr.lifecycle = .keysConfigured ∧ fullTdr.numTdcx = s.plat.tdcsBaseSize / 4096 ∧
    params = TdParams.ofBytes (sharedBytes s (s.hreg .rdx).toNat 1024) s.plat.cpuidConfig.length ∧
    attributesLegal s.plat params.attributes = true ∧ xfamLegal s.plat params.xfam = true ∧ params.maxVcpus ≠ 0 ∧
    eptpControlsLegal params.eptpControls = true ∧ execControlsLegal params.execControls params.eptpControls = true ∧
    4 ≤ params.tscFrequency ∧ params.tscFrequency ≤ 400 ∧ params.reservedZero = true ∧
    (∀ e ∈ (s.plat.cpuidConfig.map CpuidConfig.effective).zip params.cpuid, cpuidWithin e.1.mask e.2 = true) ∧
    bit s.lp.miscEnable 22 = false ∧ s.lp.tscAdjust = s.sampledTscAdjust := by decide +kernel

theorem test_mngInit : raxAfter (exec .tdhMngInit (initCall 4 fullTdr)) = some 0 ∧
    raxAfter (exec .tdhMngInit (initCall 3 fullTdr)) = some 0xC000010000000046 ∧
    raxAfter (exec .tdhMngInit (initCall 401 fullTdr)) = some 0xC000010000000046 ∧
    raxAfter (exec .tdhMngInit (initCall 4 rawTdr)) = some 0xC000061000000000 := by decide +kernel

theorem test_xfamLegal : (([0x3, 0x7] : List Word).all fun x => xfamLegal Platform.reference x) = true ∧
    (([0x1, 0xE3, 0x23, 0x803, 0x403] : List Word).any fun x => xfamLegal Platform.reference x) = false := by
  decide +kernel

/-- TDH.MNG.RD and TDH.MNG.WR of a field of a debuggable or production TD. -/
def fieldCall (debug : Bool) (id : Word) : State :=
  withTdcs (built [(.rcx, 0x100000000), (.rdx, id), (.r8, 1), (.r9, 1)] .present) fun c =>
    { c with attributes := if debug then 1 else 0 }

theorem witness_MngRdWrComplete : let s := fieldCall true 0x9100000000000010
    let r : TdFieldRow := ⟨0x9100000000000010, 1, .notifyEnables, .none, .rw, .rw, 1⟩
    HostReady s ∧ TdOperand s (s.hreg .rcx) tdr { tdcs with attributes := 1 } ∧ PageSharable s (s.hreg .rcx).toNat ∧
    tdField s.plat (s.hreg .rdx) = some (r, 0) ∧ (r.host { tdcs with attributes := 1 }).reads = true ∧
    (r.host { tdcs with attributes := 1 }).writes = true ∧ r.writeMask &&& s.hreg .r9 ≠ 0 := by decide +kernel

theorem test_mngRd : outAfter .r8 (exec .tdhMngRd (fieldCall false 0x1100000000000001)) = some 3 ∧
    raxAfter (exec .tdhMngRd (fieldCall false 0x8100000000000001)) = some 0xC000072100000000 ∧
    raxAfter (exec .tdhMngRd (fieldCall false 0x1100000100000002)) = some 0xC000010000000002 := by decide +kernel

theorem test_mngWr : raxAfter (exec .tdhMngWr (fieldCall true 0x9100000000000010)) = some 0 ∧
    raxAfter (exec .tdhMngWr (fieldCall false 0x1100000000000002)) = some 0xC000072000000000 ∧
    outAfter .r8 (exec .tdhMngWr (fieldCall false 0x1100000000000002)) = some 0 := by decide +kernel

/-- A function with the TDR in RCX, the TDR and the KOT entry given. -/
def tdrCall (t : Tdr) (k : KotEntry) : State :=
  { withTdr (built [(.rcx, 0x100000000)] .present) (fun _ => t) with
    kot := tblSet (initialKot Platform.reference 32) 33 k }

theorem witness_TeardownFunctionsComplete_vpflushdone : let s := tdrCall tdr ⟨.assigned, []⟩
    HostReady s ∧ OpaqueOperand s (s.hreg .rcx) 4096 ∧ PageTakable s (s.hreg .rcx).toNat ∧ Takable s .kot ∧
    TdrPage s (s.hreg .rcx).toNat tdr ∧
    (tdr.lifecycle = .hkidAssigned ∨ tdr.lifecycle = .keysConfigured) ∧ (kotAt s tdr.hkid).state = .assigned ∧
    TdcsOf s (s.hreg .rcx).toNat tdr tdcs ∧ tdcs.numAssocVcpus = 0 := by decide +kernel

theorem witness_TeardownFunctionsComplete_vpflushdone_not_initialised : let s := raw [(.rcx, 0x100000000)] (newTdr 1)
    HostReady s ∧ OpaqueOperand s (s.hreg .rcx) 4096 ∧ PageTakable s (s.hreg .rcx).toNat ∧ Takable s .kot ∧
    TdrPage s (s.hreg .rcx).toNat (newTdr 1) ∧
    ((newTdr 1).lifecycle = .hkidAssigned ∨ (newTdr 1).lifecycle = .keysConfigured) ∧
    (kotAt s (newTdr 1).hkid).state = .assigned ∧ (newTdr 1).init = false := by decide +kernel

theorem witness_TeardownFunctionsComplete_freeid : let t := { tdr with lifecycle := .blocked }
    let s := tdrCall t ⟨.flushed, []⟩
    HostReady s ∧ OpaqueOperand s (s.hreg .rcx) 4096 ∧ PageTakable s (s.hreg .rcx).toNat ∧ Takable s .kot ∧
    TdrPage s (s.hreg .rcx).toNat t ∧ t.lifecycle = .blocked ∧
    (kotAt s t.hkid).state = .flushed ∧ (kotAt s t.hkid).wbcache = [] := by decide +kernel

theorem test_mngVpflushdone :
    holdsAfter (fun t => kotAt t 33 == ⟨.flushed, [0, 1]⟩) (exec .tdhMngVpflushdone (tdrCall tdr ⟨.assigned, []⟩)) = true ∧
    raxAfter (exec .tdhMngVpflushdone (withTdcs (tdrCall tdr ⟨.assigned, []⟩) fun c => { c with numAssocVcpus := 1 }))
      = some 0x8000082400000000 := by decide +kernel

theorem test_mngKeyFreeid :
    holdsAfter (fun t => (kotAt t 33).state == .free)
      (exec .tdhMngKeyFreeid (tdrCall { tdr with lifecycle := .blocked } ⟨.flushed, []⟩)) = true ∧
    raxAfter (exec .tdhMngKeyFreeid (tdrCall { tdr with lifecycle := .blocked } ⟨.flushed, [1]⟩))
      = some 0x8000081700000000 := by decide +kernel

theorem witness_MngKeyReclaimidRule : HostCalls (ready []) ∧ (ready []).sysState = .sysReady ∧
    HostCalls { ready [] with sysState := .sysShutdown } ∧ HostCalls initDone ∧ initDone.sysState ≠ .sysReady ∧
    initDone.sysState ≠ .sysShutdown := by decide +kernel

theorem test_mngKeyReclaimid : raxAfter (exec .tdhMngKeyReclaimid (ready [(.rcx, 77)])) = some 0 ∧
    raxAfter (exec .tdhMngKeyReclaimid State.reset) = some 0xC000050500000000 := by decide +kernel

/-- TDH.MR.EXTEND of a chunk of PG0. -/
def extendCall (rcx : Word) (x : SeptState) : State := built [(.rcx, rcx), (.rdx, 0x100000000)] x

theorem witness_MrExtendCompletes : ∀ gpa ∈ [0xFFFFF000, 0xFFFFFF00], let s := extendCall (w64 gpa) .present
    let p : SeptPos := ⟨0x100014FF8, 0, ⟨.present, true, 0x100100000⟩⟩
    HostReady s ∧ isAligned (s.hreg .rcx).toNat 256 = true ∧ TdOperand s (s.hreg .rdx) tdr tdcs ∧
    PageTakable s (s.hreg .rdx).toNat ∧ Sharable s (.sept (s.hreg .rdx).toNat) ∧
    tdcs.privateGpa (s.hreg .rcx).toNat = true ∧ tdcs.finalized = false ∧
    septWalk s tdcs tdr.hkid (s.hreg .rcx).toNat (some 0) = .ok p ∧ p.entry.state = .present ∧
    poisoned s tdr.hkid (p.entry.hpa + (s.hreg .rcx).toNat % 4096) 256 = false := by decide +kernel

theorem test_mrExtend : raxAfter (exec .tdhMrExtend (extendCall 0xFFFFF080 .present)) = some 0xC000010000000001 ∧
    raxAfter (exec .tdhMrExtend (extendCall 0xFFFFF000 .blocked)) = some 0xC0000B0300000001 := by decide +kernel

/-- TDH.MR.FINALIZE. -/
def finalizeCall (rcx : Word) : State := built [(.rcx, rcx)] .present

theorem witness_MrFinalizeRule_operand :
    (∀ pa ∈ [0x100000800, 0x400000000000, 0x210100000000], let s := finalizeCall (w64 pa)
      HostCalls s ∧ s.sysState = .sysReady ∧ (2 ^ s.plat.maxPa ≤ (s.hreg .rcx).toNat ∨
        isAligned (s.hreg .rcx).toNat 4096 = false ∨ hkidOf s.plat (s.hreg .rcx).toNat ≠ 0)) ∧
    (let s := finalizeCall 0x200000000
     HostCalls s ∧ (s.hreg .rcx).toNat < 2 ^ s.plat.maxPa ∧ isAligned (s.hreg .rcx).toNat 4096 = true ∧
      hkidOf s.plat (s.hreg .rcx).toNat = 0 ∧ blockReady s (s.hreg .rcx).toNat = false) := by decide +kernel

theorem witness_MrFinalizeRule_locked : ∀ l ∈ ([(.pamt1g 0x100000000, .exclusive), (.pamt2m 0x100000000, .exclusive),
      (.pamt4k 0x100000000, .shared 1)] : List (LockId × LockState)),
    let s := { finalizeCall 0x100000000 with locks := [l] }
    HostCalls s ∧ s.sysState = .sysReady ∧ OpaqueOperand s (s.hreg .rcx) 4096 ∧
    (lockState s.locks (.pamt1g (pageBase (s.hreg .rcx).toNat 2)) = some .exclusive ∨
      lockState s.locks (.pamt2m (pageBase (s.hreg .rcx).toNat 1)) = some .exclusive ∨
      lockState s.locks (.pamt4k (s.hreg .rcx).toNat) ≠ none) := by decide +kernel

theorem witness_MrFinalizeRule_states :
    (OpaqueOperand (finalizeCall 0x100001000) ((finalizeCall 0x100001000).hreg .rcx) 4096 ∧
      PageTakable (finalizeCall 0x100001000) 0x100001000 ∧
      pageIs (finalizeCall 0x100001000) 0x100001000 0 .tdr = false) ∧
    ∀ t ∈ [{ tdr with fatal := true }, { tdr with lifecycle := .blocked }, { tdr with init := false }, tdr],
      let s := withTdr (finalizeCall 0x100000000) fun _ => t
      HostCalls s ∧ s.sysState = .sysReady ∧ OpaqueOperand s (s.hreg .rcx) 4096 ∧
      PageTakable s (s.hreg .rcx).toNat ∧
      TdrPage s (s.hreg .rcx).toNat t := by decide +kernel

theorem witness_MrFinalizeRule_completes : ∀ b ∈ [true, false],
    let c := { tdcs with finalized := b }
    let s := withTdcs (finalizeCall 0x100000000) fun _ => c
    HostReady s ∧ OpaqueOperand s (s.hreg .rcx) 4096 ∧ PageTakable s (s.hreg .rcx).toNat ∧
    TdrPage s (s.hreg .rcx).toNat tdr ∧ TdUsable tdr ∧
    TdcsOf s (s.hreg .rcx).toNat tdr c := by decide +kernel

/-- V95: the digest of the empty message. -/
theorem test_mrFinalize :
    holdsAfter (fun t => (tblGet t.tdcss T).any fun c => c.finalized && c.mrtd.take 8 ==
      [0x38, 0xb0, 0x60, 0xa7, 0x51, 0xac, 0x96, 0x38]) (exec .tdhMrFinalize (finalizeCall 0x100000000)) = true := by
  decide +kernel

theorem test_mrFinalize_refuses :
    raxAfter (exec .tdhMrFinalize (withTdcs (finalizeCall 0x100000000) fun c => { c with finalized := true }))
      = some 0xC000060300000000 ∧
    raxAfter (exec .tdhMrFinalize (finalizeCall 0x100001000)) = some 0xC000030000000001 := by decide +kernel

/-! ## TDH.MEM.* (V120 to V147) -/

/-- A function with a mapping word in RCX and the TDR in RDX, over a Secure EPT. -/
def mapCall (rcx r8 : Word) (tbl : Table SeptEntry) : State :=
  { built [(.rcx, rcx), (.rdx, 0x100000000), (.r8, r8), (.r9, 0x80002000)] .present with sept := tbl }

/-- A five-level TD: its root page holds level-4 entries. -/
def wideTdcs : Tdcs := { tdcs with gpaw := true, eptp := 0x100004026 }

theorem witness_MemSeptAddCompletes : let s := mapCall 0x200001 0x100030000 tree
    let p : SeptPos := ⟨0x100011008, 1, SeptEntry.free⟩
    HostReady s ∧ TdOperand s (s.hreg .rdx) tdr tdcs ∧ TreeTakable s (s.hreg .rdx).toNat ∧
    MapOperand (s.hreg .rcx) tdcs 1 4 1 0x200000 ∧
    FreePage s (s.hreg .r8) 0 (s.hreg .rdx).toNat ∧ septWalk s tdcs tdr.hkid 0x200000 (some 1) = .ok p ∧
    p.entry.state = .free := by decide +kernel

theorem witness_MemSeptAddCompletes_level_4 :
    let s := withTdcs (mapCall 0x1000000000004 0x100030000 tree) fun _ => wideTdcs
    let p : SeptPos := ⟨0x100004008, 4, SeptEntry.free⟩
    HostReady s ∧ TdOperand s (s.hreg .rdx) tdr wideTdcs ∧ TreeTakable s (s.hreg .rdx).toNat ∧
    MapOperand (s.hreg .rcx) wideTdcs 1 4 4 0x1000000000000 ∧
    FreePage s (s.hreg .r8) 0 (s.hreg .rdx).toNat ∧
    septWalk s wideTdcs tdr.hkid 0x1000000000000 (some 4) = .ok p ∧ p.entry.state = .free := by decide +kernel

/-- P1 step 6, V120, V122, V123, V50. -/
theorem test_memSeptAdd :
    outAfter .rcx (exec .tdhMemSeptAdd (mapCall 3 0x100030000 [])) = some 0x0000000100030007 ∧
    outAfter .rdx (exec .tdhMemSeptAdd (mapCall 3 0x100030000 [])) = some 0x0403 ∧
    raxAfter (exec .tdhMemSeptAdd (mapCall 1 0x100030000 [])) = some 0xC0000B0000000001 ∧
    outAfter .rdx (exec .tdhMemSeptAdd (mapCall 1 0x100030000 [])) = some 3 := by decide +kernel

theorem test_memSeptAdd_refuses :
    raxAfter (exec .tdhMemSeptAdd (mapCall 3 0x100030000 tree)) = some 0xC0000B0200000001 ∧
    raxAfter (exec .tdhMemSeptAdd (mapCall 3 0x100001000 [])) = some 0xC000030000000008 ∧
    raxAfter (exec .tdhMemSeptAdd (mapCall 3 0x100000000 [])) = some 0x8000020000000008 ∧
    raxAfter (exec .tdhMemSeptAdd (mapCall 4 0x100030000 [])) = some 0xC000010000000001 ∧
    raxAfter (exec .tdhMemSeptAdd (mapCall 0 0x100030000 [])) = some 0xC000010000000001 := by decide +kernel

theorem witness_ReadingFunctionsComplete : let s := mapCall 0xFFFFF000 0 (treeWith .present)
    let p : SeptPos := ⟨0x100014FF8, 0, ⟨.present, true, 0x100100000⟩⟩
    HostReady s ∧ TdOperand s (s.hreg .rdx) tdr tdcs ∧ PageSharable s (s.hreg .rdx).toNat ∧
    Sharable s (.sept (s.hreg .rdx).toNat) ∧ MapOperand (s.hreg .rcx) tdcs 0 4 0 0xFFFFF000 ∧
    septWalk s tdcs tdr.hkid 0xFFFFF000 (some 0) = .ok p := by decide +kernel

theorem witness_ReadingFunctionsComplete_rdmd : let s := finalizeCall 0x100100000
    HostReady s ∧ OpaqueOperand s (s.hreg .rcx) 4096 ∧ PageSharable s (s.hreg .rcx).toNat := by decide +kernel

/-- V127, V128. -/
theorem test_memSeptRd :
    outAfter .rcx (exec .tdhMemSeptRd (mapCall 0xFFFFF000 0 (treeWith .present))) = some 0x80000001001000F7 ∧
    outAfter .rdx (exec .tdhMemSeptRd (mapCall 0xFFFFF000 0 (treeWith .present))) = some 0x0400 ∧
    outAfter .rcx (exec .tdhMemSeptRd (mapCall 0xFFFFE000 0 (treeWith .present))) = some 0x8000000000000000 ∧
    raxAfter (exec .tdhMemSeptRd (mapCall 0x4000000000 0 (treeWith .present))) = some 0xC0000B0000000001 := by
  decide +kernel

/-- V160 to V162. -/
theorem test_phymemPageRdmd : outAfter .rcx (exec .tdhPhymemPageRdmd (finalizeCall 0x100000000)) = some 4 ∧
    outAfter .rcx (exec .tdhPhymemPageRdmd (finalizeCall 0x100100000)) = some 3 ∧
    outAfter .rdx (exec .tdhPhymemPageRdmd (finalizeCall 0x100100000)) = some 0x100000000 ∧
    outAfter .rcx (exec .tdhPhymemPageRdmd (finalizeCall 0x17F000000)) = some 1 := by decide +kernel

theorem test_septEntryOut : septEntryOut tdcs ⟨.pending, true, 0x100101000⟩ = 0x00000001001010F0 ∧
    septEntryOut { tdcs with attributes := 0x10000000 } ⟨.pending, true, 0x100101000⟩ = 0x80000001001010F0 ∧
    septEntryOut tdcs ⟨.blocked, true, 0x100101000⟩ = 0x80000001001010F0 ∧
    septEntryOut tdcs ⟨.blocked, false, 0x100010000⟩ = 0x0000000100010000 ∧
    extQualAccept 1 2 SeptEntry.free = 0x0000001100000001 ∧
    extQualAccept 0 1 ⟨.pending, true, 0⟩ = 0x0000408800000001 := by decide +kernel

/-- V53: BEPOCH 7. -/
theorem test_tlbTrackingDone : tlbTrackingDone { tdcs with tdEpoch := 7 } 7 = false ∧
    tlbTrackingDone { tdcs with tdEpoch := 8, refcount1 := 1 } 7 = false ∧
    tlbTrackingDone { tdcs with tdEpoch := 8 } 7 = true ∧
    tlbTrackingDone { tdcs with tdEpoch := 9, refcount0 := 3, refcount1 := 2 } 7 = true := by decide +kernel

/-- D3, the Secure EPT page below D2 entry 0, blocked in epoch 1. -/
def blockedD3 : Table SeptEntry := tblSet tree 0x100011000 ⟨.blocked, false, 0x100012000⟩

theorem witness_MemSeptRemoveCompletes : let s := mapCall 1 0 blockedD3
    let p : SeptPos := ⟨0x100011000, 1, ⟨.blocked, false, 0x100012000⟩⟩
    HostReady s ∧ TdOperand s (s.hreg .rdx) tdr tdcs ∧ TreeTakable s (s.hreg .rdx).toNat ∧
    MapOperand (s.hreg .rcx) tdcs 1 4 1 0 ∧
    septWalk s tdcs tdr.hkid 0 (some 1) = .ok p ∧ p.entry.leaf = false ∧ p.entry.state = .blocked ∧
    Takable s (.pamt4k p.entry.hpa) ∧ pamtReadable s p.entry.hpa = true ∧
    p.entry.hpa ≠ (s.hreg .rdx).toNat ∧ tlbTrackingDone tdcs (pamtAt s p.entry.hpa 0).bepoch = true ∧
    pageReadable s tdr.hkid p.entry.hpa = true ∧ septPageFree s p.entry.hpa = true := by decide +kernel

/-- V142, V143. -/
theorem test_memSeptRemove : outAfter .rcx (exec .tdhMemSeptRemove (mapCall 1 0 blockedD3)) = some 0x100012000 ∧
    raxAfter (exec .tdhMemSeptRemove (mapCall 1 0 blockedD3)) = some 0 ∧
    raxAfter (exec .tdhMemSeptRemove (mapCall 1 0 (tblSet blockedD3 0x100012008 ⟨.pending, true, 0x100101000⟩)))
      = some 0xC0000B0200000001 := by decide +kernel

theorem witness_MemPageAddCompletes : let s := mapCall 0xFFFFE000 0x100030000 tree
    let p : SeptPos := ⟨0x100014FF0, 0, SeptEntry.free⟩
    HostReady s ∧ TdOperand s (s.hreg .rdx) tdr tdcs ∧ PageTakable s (s.hreg .rdx).toNat ∧
    Takable s (.sept (s.hreg .rdx).toNat) ∧ MapOperand (s.hreg .rcx) tdcs 0 0 0 0xFFFFE000 ∧
    tdcs.finalized = false ∧ FreePage s (s.hreg .r8) 0 (s.hreg .rdx).toNat ∧ SharedOperand s (s.hreg .r9) 4096 ∧
    septWalk s tdcs tdr.hkid 0xFFFFE000 (some 0) = .ok p ∧ p.entry.state = .free ∧
    SharedReadable s (s.hreg .r9) 4096 := by decide +kernel

/-- V124 to V126. -/
theorem test_memPageAdd : raxAfter (exec .tdhMemPageAdd (mapCall 0xFFFFF000 0x100030000 tree)) = some 0 ∧
    raxAfter (exec .tdhMemPageAdd (mapCall 0xFFFFF000 0x100030000 (treeWith .present))) = some 0xC0000B0200000001 ∧
    raxAfter (exec .tdhMemPageAdd (mapCall 0xFFFFF001 0x100030000 tree)) = some 0xC000010000000001 := by decide +kernel

theorem witness_MemPageAugCompletes : let s := mapCall 0x1000 0x100030000 tree
    let p : SeptPos := ⟨0x100012008, 0, SeptEntry.free⟩
    HostReady s ∧ TdOperand s (s.hreg .rdx) tdr tdcs ∧ TreeTakable s (s.hreg .rdx).toNat ∧
    MapOperand (s.hreg .rcx) tdcs 0 1 0 0x1000 ∧
    (s.plat.augNeedsFinalized = true → tdcs.finalized = true) ∧ FreePage s (s.hreg .r8) 0 (s.hreg .rdx).toNat ∧ septWalk s tdcs tdr.hkid 0x1000 (some 0) = .ok p ∧
    p.entry.state = .free := by decide +kernel

/-- R421 (a): a build that refuses TDs not yet finalised, here with one that is. -/
theorem witness_MemPageAugCompletes_finalized :
    let s := { withTdcs (mapCall 0x1000 0x100030000 tree) (fun c => { c with finalized := true }) with
      plat := { Platform.reference with augNeedsFinalized := true } }
    s.plat.augNeedsFinalized = true ∧ TdOperand s (s.hreg .rdx) tdr { tdcs with finalized := true } ∧
    raxAfter (exec .tdhMemPageAug s) = some 0 ∧
    raxAfter (exec .tdhMemPageAug { s with tdcss := [(T, tdcs)] }) = some 0xC000060200000000 := by decide +kernel

theorem witness_MemPageAugCompletes_2mb : let s := mapCall 0x200001 0x100200000 tree
    let p : SeptPos := ⟨0x100011008, 1, SeptEntry.free⟩
    HostReady s ∧ TdOperand s (s.hreg .rdx) tdr tdcs ∧ TreeTakable s (s.hreg .rdx).toNat ∧
    MapOperand (s.hreg .rcx) tdcs 0 1 1 0x200000 ∧
    (s.plat.augNeedsFinalized = true → tdcs.finalized = true) ∧ FreePage s (s.hreg .r8) 1 (s.hreg .rdx).toNat ∧ septWalk s tdcs tdr.hkid 0x200000 (some 1) = .ok p ∧
    p.entry.state = .free := by decide +kernel

/-- V130, V131, V132. -/
theorem test_memPageAug :
    holdsAfter (fun t => septAt t 0x100012008 == ⟨.pending, true, 0x100101000⟩)
      (exec .tdhMemPageAug (mapCall 0x1000 0x100101000 tree)) = true ∧
    holdsAfter (fun t => (tblGet t.tdrs T).any fun r => r.chldcnt == 526)
      (exec .tdhMemPageAug (mapCall 0x200001 0x100200000 tree)) = true ∧
    raxAfter (exec .tdhMemPageAug { mapCall 0x200001 0x100200000 tree with
      pamt4k := pamt ++ [(0x100203000, ⟨.reg, T, 0⟩)] }) = some 0xC000030000000008 := by decide +kernel

/-- R251, R785: a line of the PAMT_4K array that holds the entries of pages 256 to 259 of the 2MB page is poisoned. -/
theorem test_memPageAug_poison :
    holdsAfter (fun t => t.seamDisabled && (t.lpAt 0).shutdown)
      (exec .tdhMemPageAug (corruptLine (mapCall 0x200001 0x100200000 tree) (0x17F003000 / 64))) = true := by decide +kernel

/-- A 2MB page at GPA 0x200000, in a state, blocked in epoch 1. -/
def large (rcx r8 : Word) (x : SeptState) : State :=
  { mapCall rcx r8 (tblSet tree 0x100011008 ⟨x, true, 0x100200000⟩) with pamt2m := [(0x100200000, ⟨.reg, T, 1⟩)] }

theorem witness_MemPageDemoteCompletes : ∀ x ∈ [SeptState.blocked, .pendingBlocked],
    let s := large 0x200001 0x100030000 x
    let p : SeptPos := ⟨0x100011008, 1, ⟨x, true, 0x100200000⟩⟩
    HostReady s ∧ TdOperand s (s.hreg .rdx) tdr tdcs ∧ TreeTakable s (s.hreg .rdx).toNat ∧
    MapOperand (s.hreg .rcx) tdcs 1 2 1 0x200000 ∧
    FreePage s (s.hreg .r8) 0 (s.hreg .rdx).toNat ∧ septWalk s tdcs tdr.hkid 0x200000 (some 1) = .ok p ∧
    p.entry.leaf = true ∧ (p.entry.state = .blocked ∨ p.entry.state = .pendingBlocked) ∧
    Takable s (pamtLock p.entry.hpa 1) ∧ pamtReadable s p.entry.hpa = true ∧
    p.entry.hpa ≠ pageBase (s.hreg .rdx).toNat 1 ∧ p.entry.hpa ≠ pageBase (s.hreg .r8).toNat 1 ∧
    tlbTrackingDone tdcs (pamtAt s p.entry.hpa 1).bepoch = true := by decide +kernel

theorem test_memPageDemote : raxAfter (exec .tdhMemPageDemote (large 0x200001 0x100030000 .blocked)) = some 0 ∧
    raxAfter (exec .tdhMemPageDemote (large 0x200001 0x100030000 .present)) = some 0xC0000B0600000001 ∧
    holdsAfter (fun t => septAt t 0x100011008 == ⟨.present, false, 0x100030000⟩ &&
        septAt t 0x100030FF8 == ⟨.pending, true, 0x1003FF000⟩)
      (exec .tdhMemPageDemote (large 0x200001 0x100030000 .pendingBlocked)) = true := by decide +kernel

/-- The 512 entries of D3, mapping consecutive pages from 0x100200000. -/
def fullD3 : Table SeptEntry :=
  (List.range' 0 512).map fun i => (0x100012000 + 8 * i, ⟨.present, true, 0x100200000 + i * 4096⟩)

/-- The Secure EPT with D3 blocked and full. -/
def promotableTree : Table SeptEntry :=
  (blockedD3.filter fun e => decide (e.1 < 0x100012000)) ++ (fullD3 ++ blockedD3.filter fun e => decide (0x100012FFF < e.1))

theorem tblGet_append {α : Type} (a b : Table α) (k : Nat) : tblGet (a ++ b) k = (tblGet a k).or (tblGet b k) := by
  induction a with
  | nil => rfl
  | cons e a ih =>
    rw [List.cons_append, tblGet, tblGet]
    split
    · rfl
    · exact ih

theorem tblGet_rangeMap {α : Type} (f : Nat → α) (base n : Nat) : ∀ lo i, lo ≤ i → i < lo + n →
    tblGet ((List.range' lo n).map fun j => (base + 8 * j, f j)) (base + 8 * i) = some (f i) := by
  induction n with
  | zero => intro lo i h1 h2; omega
  | succ n ih =>
    intro lo i h1 h2
    rw [List.range'_succ, List.map_cons, tblGet]
    by_cases h : lo = i
    · rw [if_pos (by omega), h]
    · rw [if_neg (by omega)]
      exact ih (lo + 1) i (by omega) (by omega)

theorem fullD3_entry (i : Nat) (h : i < 512) :
    tblGet promotableTree (0x100012000 + 8 * i) = some ⟨.present, true, 0x100200000 + i * 4096⟩ := by
  have before : tblGet (blockedD3.filter fun e => decide (e.1 < 0x100012000)) (0x100012000 + 8 * i) = none := by
    have e : blockedD3.filter (fun e => decide (e.1 < 0x100012000)) =
      [(0x100004000, ⟨.present, false, 0x100010000⟩), (0x100010000, ⟨.present, false, 0x100011000⟩),
       (0x100010018, ⟨.present, false, 0x100013000⟩), (0x100011000, ⟨.blocked, false, 0x100012000⟩)] := by decide
    rw [e]
    simp only [tblGet]
    repeat rw [if_neg (by omega)]
  rw [promotableTree, tblGet_append, before, Option.none_or, tblGet_append, fullD3,
    tblGet_rangeMap (fun i => (⟨.present, true, 0x100200000 + i * 4096⟩ : SeptEntry)) 0x100012000 512 0 i (by omega)
      (by omega), Option.some_or]

theorem witness_MemPagePromoteCompletes : let s := mapCall 1 0 promotableTree
    let p : SeptPos := ⟨0x100011000, 1, ⟨.blocked, false, 0x100012000⟩⟩
    HostReady s ∧ TdOperand s (s.hreg .rdx) tdr tdcs ∧ TreeTakable s (s.hreg .rdx).toNat ∧
    MapOperand (s.hreg .rcx) tdcs 1 2 1 0 ∧
    septWalk s tdcs tdr.hkid 0 (some 1) = .ok p ∧ p.entry.leaf = false ∧ p.entry.state = .blocked ∧
    Takable s (.pamt4k p.entry.hpa) ∧ pamtReadable s p.entry.hpa = true ∧
    p.entry.hpa ≠ (s.hreg .rdx).toNat ∧ tlbTrackingDone tdcs (pamtAt s p.entry.hpa 0).bepoch = true ∧
    pageReadable s tdr.hkid p.entry.hpa = true ∧ 0x100200000 = (septAt s p.entry.hpa).hpa ∧
    Takable s (pamtLock 0x100200000 1) ∧ pamtReadable s 0x100200000 = true ∧
    isAligned 0x100200000 (2 ^ (12 + 9 * 1)) = true ∧ 0x100200000 ≠ pageBase (s.hreg .rdx).toNat 1 ∧
    ∀ i, i < 512 → septAt s (p.entry.hpa + 8 * i) = ⟨.present, true, 0x100200000 + i * 2 ^ (12 + 9 * (1 - 1))⟩ := by
  iterate 17 refine ⟨by decide +kernel, ?_⟩
  intro i hi
  show (tblGet promotableTree (0x100012000 + 8 * i)).getD SeptEntry.free = _
  rw [fullD3_entry i hi]
  rfl

theorem test_memPagePromote_refuses :
    raxAfter (exec .tdhMemPagePromote (mapCall 1 0 blockedD3)) = some 0xC0000B0900000001 ∧
    raxAfter (exec .tdhMemPagePromote (mapCall 1 0 tree)) = some 0xC0000B0600000001 := by decide +kernel

theorem witness_MemPageRelocateCompletes : ∀ x ∈ [SeptState.blocked, .pendingBlocked],
    let s := mapCall 0xFFFFF000 0x100030000 (treeWith x)
    let p : SeptPos := ⟨0x100014FF8, 0, ⟨x, true, 0x100100000⟩⟩
    HostReady s ∧ TdOperand s (s.hreg .rdx) tdr tdcs ∧ TreeTakable s (s.hreg .rdx).toNat ∧
    MapOperand (s.hreg .rcx) tdcs 0 0 0 0xFFFFF000 ∧
    FreePage s (s.hreg .r8) 0 (s.hreg .rdx).toNat ∧ septWalk s tdcs tdr.hkid 0xFFFFF000 (some 0) = .ok p ∧
    p.entry.leaf = true ∧ Takable s (.pamt4k p.entry.hpa) ∧ pamtReadable s p.entry.hpa = true ∧
    p.entry.hpa ≠ (s.hreg .rdx).toNat ∧ p.entry.hpa ≠ (s.hreg .r8).toNat ∧
    tlbTrackingDone tdcs (pamtAt s p.entry.hpa 0).bepoch = true ∧ pageReadable s tdr.hkid p.entry.hpa = true := by
  decide +kernel

theorem test_memPageRelocate :
    holdsAfter (fun t => septAt t 0x100014FF8 == ⟨.present, true, 0x100030000⟩ && (pamtAt t 0x100100000 0).pt == .nda)
      (exec .tdhMemPageRelocate (mapCall 0xFFFFF000 0x100030000 (treeWith .blocked))) = true ∧
    raxAfter (exec .tdhMemPageRelocate (mapCall 0xFFFFF000 0x100030000 (treeWith .present))) = some 0xC0000B0600000001 := by
  decide +kernel

theorem witness_MemPageRemoveCompletes : ∀ x ∈ [SeptState.blocked, .pendingBlocked],
    let s := mapCall 0xFFFFF000 0 (treeWith x)
    let p : SeptPos := ⟨0x100014FF8, 0, ⟨x, true, 0x100100000⟩⟩
    HostReady s ∧ TdOperand s (s.hreg .rdx) tdr tdcs ∧ TreeTakable s (s.hreg .rdx).toNat ∧
    MapOperand (s.hreg .rcx) tdcs 0 2 0 0xFFFFF000 ∧
    septWalk s tdcs tdr.hkid 0xFFFFF000 (some 0) = .ok p ∧ p.entry.leaf = true ∧
    (p.entry.state = .blocked ∨ p.entry.state = .pendingBlocked) ∧ Takable s (pamtLock p.entry.hpa 0) ∧ pamtReadable s p.entry.hpa = true ∧
    p.entry.hpa ≠ pageBase (s.hreg .rdx).toNat 0 ∧
    tlbTrackingDone tdcs (pamtAt s p.entry.hpa 0).bepoch = true := by decide +kernel

/-- V138, V139, and P3 step 10. -/
theorem test_memPageRemove :
    outAfter .rcx (exec .tdhMemPageRemove (mapCall 0xFFFFF000 0 (treeWith .blocked))) = some 0x100100000 ∧
    raxAfter (exec .tdhMemPageRemove (mapCall 0xFFFFF000 0 (treeWith .present))) = some 0xC0000B0600000001 ∧
    raxAfter (exec .tdhMemPageRemove (withTdcs (mapCall 0xFFFFF000 0 (treeWith .blocked)) fun c =>
      { c with tdEpoch := 2, refcount1 := 1 })) = some 0xC0000B0800000001 := by decide +kernel

theorem witness_MemRangeBlockUnblockComplete :
    ∀ x ∈ [SeptState.present, .pending, .blocked, .pendingBlocked], let s := mapCall 0xFFFFF000 0 (treeWith x)
    let p : SeptPos := ⟨0x100014FF8, 0, ⟨x, true, 0x100100000⟩⟩
    HostReady s ∧ TdOperand s (s.hreg .rdx) tdr tdcs ∧ TreeTakable s (s.hreg .rdx).toNat ∧
    MapOperand (s.hreg .rcx) tdcs 0 4 0 0xFFFFF000 ∧
    septWalk s tdcs tdr.hkid 0xFFFFF000 (some 0) = .ok p ∧ pamtReadable s p.entry.hpa = true ∧
    ((p.entry.state = .present ∨ p.entry.state = .pending) ∧
        ¬(s.raceLost = true ∧ p.entry.state = .pending ∧ lockState s.locks (.septEntry p.addr) ≠ none) ∨
      (p.entry.state = .blocked ∨ p.entry.state = .pendingBlocked) ∧
        tlbTrackingDone tdcs (pamtAt s p.entry.hpa (if p.entry.leaf then p.level else 0)).bepoch = true) := by
  decide +kernel

theorem witness_MemRangeBlockUnblockComplete_non_leaf : let s := mapCall 1 0 tree
    let p : SeptPos := ⟨0x100011000, 1, ⟨.present, false, 0x100012000⟩⟩
    HostReady s ∧ TdOperand s (s.hreg .rdx) tdr tdcs ∧ TreeTakable s (s.hreg .rdx).toNat ∧
    MapOperand (s.hreg .rcx) tdcs 0 4 1 0 ∧
    septWalk s tdcs tdr.hkid 0 (some 1) = .ok p ∧ pamtReadable s p.entry.hpa = true ∧ p.entry.state = .present := by
  decide +kernel

/-- TDH.MEM.RANGE.BLOCK against a TDG.MEM.PAGE.ACCEPT that holds the entry. -/
def raceCall (lost : Bool) : State :=
  { mapCall 0xFFFFF000 0 (treeWith .pending) with
    raceLost := lost, locks := [(.septEntry 0x100014FF8, .exclusive)] }

theorem witness_MemRangeBlockUnblockComplete_race : ∀ lost ∈ [true, false], let s := raceCall lost
    let p : SeptPos := ⟨0x100014FF8, 0, ⟨.pending, true, 0x100100000⟩⟩
    HostReady s ∧ TdOperand s (s.hreg .rdx) tdr tdcs ∧ TreeTakable s (s.hreg .rdx).toNat ∧
    septWalk s tdcs tdr.hkid 0xFFFFF000 (some 0) = .ok p ∧ pamtReadable s p.entry.hpa = true ∧
    s.raceLost = lost ∧ p.entry.state = .pending ∧ lockState s.locks (.septEntry p.addr) ≠ none ∧
    holdsAfter (fun t => septAt t p.addr == ⟨if lost then .pending else .pendingBlocked, true, 0x100100000⟩)
      (exec .tdhMemRangeBlock s) = true := by decide +kernel

/-- V133, V134. -/
theorem test_memRangeBlock :
    holdsAfter (fun t => septAt t 0x100014FF8 == ⟨.blocked, true, 0x100100000⟩ && (pamtAt t 0x100100000 0).bepoch == 3)
      (exec .tdhMemRangeBlock (mapCall 0xFFFFF000 0 (treeWith .present))) = true ∧
    raxAfter (exec .tdhMemRangeBlock (mapCall 0xFFFFF000 0 (treeWith .blocked))) = some 0x00000B0700000001 ∧
    raxAfter (exec .tdhMemRangeBlock (mapCall 0xFFFFE000 0 (treeWith .present))) = some 0xC0000B0100000001 := by
  decide +kernel

theorem test_memRangeUnblock :
    holdsAfter (fun t => septAt t 0x100014FF8 == ⟨.pending, true, 0x100100000⟩)
      (exec .tdhMemRangeUnblock (mapCall 0xFFFFF000 0 (treeWith .pendingBlocked))) = true ∧
    raxAfter (exec .tdhMemRangeUnblock (mapCall 0xFFFFF000 0 (treeWith .present))) = some 0xC0000B0600000001 := by
  decide +kernel

/-- A chunk of PG0 of a debuggable TD. -/
def chunkCall (rcx r8 : Word) (debug : Bool) : State :=
  withTdcs (mapCall rcx r8 (treeWith .present)) fun c => { c with attributes := if debug then 1 else 0 }

theorem witness_MemRdWrComplete : ∀ gpa ∈ [0xFFFFF000, 0xFFFFFFF8], ∀ y ∈ [none, some 0],
    let s := (chunkCall (w64 gpa) 0 true).modLp fun l => { l with yieldAt := y }
    let c := { tdcs with attributes := 1 }
    let p : SeptPos := ⟨0x100014FF8, 0, ⟨.present, true, 0x100100000⟩⟩
    HostReady s ∧ isAligned (s.hreg .rcx).toNat 8 = true ∧ TdOperand s (s.hreg .rdx) tdr c ∧
    PageSharable s (s.hreg .rdx).toNat ∧ Sharable s (.sept (s.hreg .rdx).toNat) ∧
    c.privateGpa (s.hreg .rcx).toNat = true ∧ c.debug = true ∧
    septWalk s c tdr.hkid (s.hreg .rcx).toNat none = .ok p ∧ p.entry.state = .present ∧
    poisoned s tdr.hkid (p.entry.hpa + (s.hreg .rcx).toNat % 2 ^ (12 + 9 * p.level)) 8 = false ∧
    s.lp.memWr = none ∧ s.lp.yieldAt = y := by decide +kernel

/-- The chunk of PG0 that the middle of a TDH.MEM.WR has read as 0. -/
def chunkRun : MemWrRun := ⟨T, 0x100100008, 33, 0x80000001001000F7, 0x400, 0⟩

/-- The state between steps 8 and 9 of a TDH.MEM.WR, another agent having stored to the chunk. -/
def chunkPaused : State :=
  match exec .tdhMemWr ((chunkCall 0xFFFFF008 0xDEADBEEF00000001 true).modLp fun l => { l with yieldAt := some 0 }) with
  | .next t => writeCached t 33 0x100100008 [7, 7, 7, 7, 7, 7, 7, 7]
  | _ => State.reset

theorem witness_MemRdWrComplete_resumed :
    let s := chunkPaused
    s.curLp < s.lps.length ∧ s.lp.shutdown = false ∧ s.lp.memWr = some chunkRun ∧ s.lp.curVcpu = none := by decide +kernel

/-- R433 (b): a store between steps 8 and 9 is overwritten, and R8 returns what the chunk held before it; meanwhile the
Secure EPT tree and the TDR page are locked, and in the end nothing is. -/
theorem test_memWr_split :
    outAfter .r8 (exec .tdhMemWr chunkPaused) = some 0 ∧ raxAfter (exec .tdhMemWr chunkPaused) = some 0 ∧
    lockState chunkPaused.locks (.sept T) = some (.shared 1) ∧ lockState chunkPaused.locks (.pamt4k T) = some (.shared 1) ∧
    holdsAfter (fun t => t.locks == [] && t.lp.memWr == none &&
        readBytes t 33 0x100100008 8 == [1, 0, 0, 0, 0xEF, 0xBE, 0xAD, 0xDE]) (exec .tdhMemWr chunkPaused) = true ∧
    refusalOf (hostStep chunkPaused (.setGpr .r8 5)) = some .notEnabled := by decide +kernel

/-- V144. -/
theorem test_memRd : raxAfter (exec .tdhMemRd (chunkCall 0xFFFFF008 0 true)) = some 0 ∧
    raxAfter (exec .tdhMemRd (chunkCall 0xFFFFF008 0 false)) = some 0xC000060500000000 := by decide +kernel

/-- V146. -/
theorem test_memWr :
    outAfter .rcx (exec .tdhMemWr (chunkCall 0xFFFFF008 0xDEADBEEF00000001 true)) = some 0x80000001001000F7 ∧
    holdsAfter (fun t => readBytes t 33 0x100100008 8 == [1, 0, 0, 0, 0xEF, 0xBE, 0xAD, 0xDE])
      (exec .tdhMemWr (chunkCall 0xFFFFF008 0xDEADBEEF00000001 true)) = true := by decide +kernel

/-- TDH.MEM.TRACK with an epoch and the reference counts. -/
def trackCall (epoch : Word) (r0 r1 : Nat) : State :=
  withTdcs (finalizeCall 0x100000000) fun c => { c with tdEpoch := epoch, refcount0 := r0, refcount1 := r1 }

theorem witness_MemTrackAdvancesEpoch : ∀ e ∈ [1, 2],
    let c := { tdcs with tdEpoch := w64 e, refcount1 := 1 }
    let s := { trackCall (w64 e) 0 1 with locks := entryLocks [] V T }
    let td := (s.hreg .rcx).toNat
    HostCalls s ∧ s.sysState = .sysReady ∧ TdOperand s (s.hreg .rcx) tdr c ∧
    lockState s.locks (.pamt1g (pageBase td 2)) ≠ some .exclusive ∧
    lockState s.locks (.pamt2m (pageBase td 1)) ≠ some .exclusive ∧
    lockState s.locks (.pamt4k td) ≠ some .exclusive ∧ lockState s.locks (.epoch td) = none ∧
    (e = 1 → (if c.tdEpoch.toNat % 2 = 0 then c.refcount1 else c.refcount0) = 0) ∧
    (e = 2 → (if c.tdEpoch.toNat % 2 = 0 then c.refcount1 else c.refcount0) ≠ 0) := by decide +kernel

/-- V135, V136. -/
theorem test_memTrack :
    holdsAfter (fun t => (tblGet t.tdcss T).any fun c => c.tdEpoch == 2) (exec .tdhMemTrack (trackCall 1 0 1)) = true ∧
    raxAfter (exec .tdhMemTrack (trackCall 2 0 1)) = some 0x8000020100000000 := by decide +kernel

/-! ## TDH.PHYMEM.* (V160 to V171) -/

/-- TDH.PHYMEM.CACHE.WB with the state of HKID 33, the write-back table, and after how many lines an
interrupt comes. -/
def cacheWbCall (rcx : Word) (k : HkidState) (w : Table WbtEntry) (intr : Option Nat) : State :=
  { ready [(.rcx, rcx)] with kot := tblSet (initialKot Platform.reference 32) 33 ⟨k, [0, 1]⟩, wbt := w }.modLp
    fun l => { l with intrPending := intr }

theorem witness_PhymemCacheWbCompletes_start : ∀ intr ∈ [some 0, some 5, none], let s := cacheWbCall 0 .flushed [] intr
    HostReady s ∧ Sharable s .kot ∧ Takable s (.wbt (s.plat.scopeOf s.curLp)) ∧ s.hreg .rcx = 0 ∧ flushedHkids s ≠ [] ∧ s.lp.intrPending = intr := by decide +kernel

theorem witness_PhymemCacheWbCompletes_nothing : let s := cacheWbCall 0 .assigned [] none
    HostReady s ∧ Sharable s .kot ∧ Takable s (.wbt (s.plat.scopeOf s.curLp)) ∧ s.hreg .rcx = 0 ∧ flushedHkids s = [] := by decide +kernel

theorem witness_PhymemCacheWbCompletes_resume : ∀ intr ∈ [some 0, some 5, none],
    let s := cacheWbCall 1 .flushed [(0, ⟨some 0, [33]⟩)] intr
    HostReady s ∧ Sharable s .kot ∧ Takable s (.wbt (s.plat.scopeOf s.curLp)) ∧ s.hreg .rcx = 1 ∧ (wbtAt s (s.plat.scopeOf s.curLp)).intrPoint.isSome = true ∧
    s.lp.intrPending = intr := by decide +kernel

theorem witness_PhymemCacheWbCompletes_resume_nothing : let s := cacheWbCall 1 .flushed [] none
    HostReady s ∧ Sharable s .kot ∧ Takable s (.wbt (s.plat.scopeOf s.curLp)) ∧ s.hreg .rcx = 1 ∧ (wbtAt s (s.plat.scopeOf s.curLp)).intrPoint = none := by decide +kernel

/-- V164 to V166, and P4 step 7. -/
theorem test_phymemCacheWb : raxAfter (exec .tdhPhymemCacheWb (cacheWbCall 0 .assigned [] none)) = some 0x0000082100000000 ∧
    raxAfter (exec .tdhPhymemCacheWb (cacheWbCall 2 .assigned [] none)) = some 0xC000010000000001 ∧
    raxAfter (exec .tdhPhymemCacheWb (cacheWbCall 1 .assigned [] none)) = some 0xC000082300000000 ∧
    holdsAfter (fun t => (kotAt t 33).wbcache == [1]) (exec .tdhPhymemCacheWb (cacheWbCall 0 .flushed [] none)) = true := by
  decide +kernel

/-- The TDR of a TD being torn down. -/
def deadTdr (n : Nat) : Tdr := { tdr with lifecycle := .teardown, chldcnt := n }

/-- TDH.PHYMEM.PAGE.RECLAIM of a page of it. -/
def reclaimCall (rcx : Word) (n : Nat) : State := withTdr (finalizeCall rcx) fun _ => deadTdr n

theorem witness_PhymemPageReclaimCompletes_tdr : let s := reclaimCall 0x100000000 0
    HostReady s ∧ OpaqueOperand s (s.hreg .rcx) 4096 ∧ pamtWalk s (s.hreg .rcx).toNat = (⟨.tdr, 0, 0⟩, 0) ∧
    isAligned (s.hreg .rcx).toNat (2 ^ (12 + 9 * 0)) = true ∧ (deadTdr 0).lifecycle = .teardown ∧
    PageTakable s (s.hreg .rcx).toNat ∧
    pageReadable s s.globalHkid (s.hreg .rcx).toNat = true ∧
    tblGet s.tdrs (s.hreg .rcx).toNat = some (deadTdr 0) ∧ (deadTdr 0).chldcnt = 0 := by decide +kernel

theorem witness_PhymemPageReclaimCompletes_child : let s := reclaimCall 0x100100000 14
    let e : PamtEntry := ⟨.reg, T, 1⟩
    HostReady s ∧ OpaqueOperand s (s.hreg .rcx) 4096 ∧ pamtWalk s (s.hreg .rcx).toNat = (e, 0) ∧
    isAligned (s.hreg .rcx).toNat (2 ^ (12 + 9 * 0)) = true ∧ (deadTdr 14).lifecycle = .teardown ∧
    PageTakable s (s.hreg .rcx).toNat ∧ Sharable s (.pamt4k e.owner) ∧ pamtReadable s e.owner = true ∧ e.pt ≠ .nda ∧
    e.pt ≠ .rsvd ∧ e.pt ≠ .tdr ∧ e.owner ≠ (s.hreg .rcx).toNat ∧ pageReadable s s.globalHkid e.owner = true ∧
    tblGet s.tdrs e.owner = some (deadTdr 14) := by decide +kernel

/-- A 2MB page of it. -/
theorem witness_PhymemPageReclaimCompletes_2mb :
    let s := { reclaimCall 0x100200000 14 with pamt2m := [(0x100200000, ⟨.reg, T, 1⟩)] }
    let e : PamtEntry := ⟨.reg, T, 1⟩
    HostReady s ∧ OpaqueOperand s (s.hreg .rcx) 4096 ∧ pamtWalk s (s.hreg .rcx).toNat = (e, 1) ∧
    isAligned (s.hreg .rcx).toNat (2 ^ (12 + 9 * 1)) = true ∧ Sharable s (.pamt1g (pageBase 0x100200000 2)) ∧
    Takable s (.pamt2m 0x100200000) ∧ Sharable s (.pamt4k e.owner) ∧ pamtReadable s e.owner = true ∧
    pageReadable s s.globalHkid e.owner = true ∧ tblGet s.tdrs e.owner = some (deadTdr 14) := by decide +kernel

/-- A 1GB page of it. -/
theorem witness_PhymemPageReclaimCompletes_1gb :
    let s := { reclaimCall 0x140000000 262158 with pamt1g := [(0x140000000, ⟨.reg, T, 1⟩)] }
    let e : PamtEntry := ⟨.reg, T, 1⟩
    HostReady s ∧ OpaqueOperand s (s.hreg .rcx) 4096 ∧ pamtWalk s (s.hreg .rcx).toNat = (e, 2) ∧
    isAligned (s.hreg .rcx).toNat (2 ^ (12 + 9 * 2)) = true ∧ Takable s (.pamt1g 0x140000000) ∧
    Sharable s (.pamt4k e.owner) ∧ pamtReadable s e.owner = true ∧ pageReadable s s.globalHkid e.owner = true ∧
    tblGet s.tdrs e.owner = some (deadTdr 262158) := by decide +kernel

/-- R781: only the TDR is written after its TD's key is gone, so a reclaimed TDCX page leaves no modified line. -/
theorem test_reclaim_lines :
    holdsAfter (fun t => t.mem.stale.isEmpty) (exec .tdhPhymemPageReclaim (reclaimCall 0x100001000 14)) = true ∧
    holdsAfter (fun t => t.mem.stale == [⟨T, 4096, 32, [0, 1]⟩]) (exec .tdhPhymemPageReclaim (reclaimCall 0x100000000 0))
      = true ∧
    holdsAfter (fun t => (tblGet t.mem.cache (cacheKey (0x100001000 / 64) 33)).any fun e => e.modified)
      (envStep (finalizeCall 0) (.moduleStore (0x100001000 / 64) 33 1)) = true ∧
    refusalOf (envStep (reclaimCall 0 14) (.moduleStore (0x100001000 / 64) 33 1)) = some .notEnabled := by decide +kernel

/-- V167 to V169, and P4 step 11. -/
theorem test_phymemPageReclaim : outAfter .rcx (exec .tdhPhymemPageReclaim (reclaimCall 0x100100000 14)) = some 3 ∧
    raxAfter (exec .tdhPhymemPageReclaim (finalizeCall 0x100001000)) = some 0xC000060700000000 ∧
    outAfter .rcx (exec .tdhPhymemPageReclaim (finalizeCall 0x100001000)) = some 5 ∧
    raxAfter (exec .tdhPhymemPageReclaim (reclaimCall 0x100000000 1)) = some 0xC000040000000000 ∧
    raxAfter (exec .tdhPhymemPageReclaim (finalizeCall 0x100300000)) = some 0xC000030000000001 := by decide +kernel

theorem witness_PhymemPageWbinvdCompletes : let s := finalizeCall 0x210100030000
    HostReady s ∧ OpaqueOperand s (clearHkid s.plat (s.hreg .rcx)) 4096 ∧
    PageSharable s (clearHkid s.plat (s.hreg .rcx)).toNat ∧
    (pamtWalk s (clearHkid s.plat (s.hreg .rcx)).toNat).1.pt = .nda := by decide +kernel

/-- V170, V171. -/
theorem test_phymemPageWbinvd : raxAfter (exec .tdhPhymemPageWbinvd (finalizeCall 0x210100030000)) = some 0 ∧
    raxAfter (exec .tdhPhymemPageWbinvd (finalizeCall 0x210100100000)) = some 0xC000030000000001 := by decide +kernel

/-- V20, V21. -/
theorem test_hkidOf : hkidOf Platform.reference 0x210100101000 = 33 ∧ addrOf Platform.reference 0x210100101000 = 0x100101000 ∧
    withHkid Platform.reference 0x100000000 32 = 0x200100000000 := by decide +kernel

/-! ## TDH.VP.* (V180 to V195) -/

theorem witness_VpCreateAddcxComplete_create : let s := mapCall 0x100030000 0 tree
    HostReady s ∧ TdOperand s (s.hreg .rdx) tdr tdcs ∧ PageSharable s (s.hreg .rdx).toNat ∧ tdcs.finalized = false ∧
    FreePage s (s.hreg .rcx) 0 (s.hreg .rdx).toNat := by decide +kernel

theorem test_vpCreate :
    holdsAfter (fun t => pamtAt t 0x100030000 0 == ⟨.tdvpr, T, 0⟩ && (tblGet t.vps 0x100030000).any fun p =>
        p.vcpuState == .uninitialized && p.assocLpid == none) (exec .tdhVpCreate (mapCall 0x100030000 0 tree)) = true ∧
    raxAfter (exec .tdhVpCreate (withTdcs (mapCall 0x100030000 0 tree) fun c => { c with finalized := true }))
      = some 0xC000060300000000 := by decide +kernel

/-- TDH.VP.ADDCX to the VCPU with `n` TDVPX pages. -/
def vpAddCall (n : Nat) : State :=
  { built [(.rcx, 0x100030000), (.rdx, 0x100020000)] .present with vps := [(V, { vcpu with numTdvpx := n })] }

theorem witness_VpCreateAddcxComplete_addcx : let s := vpAddCall 2
    let p := { vcpu with numTdvpx := 2 }
    HostReady s ∧ VcpuOperand s (s.hreg .rdx) T tdr tdcs p ∧ PageTakable s (s.hreg .rdx).toNat ∧ TdUsable tdr ∧
    tdcs.finalized = false ∧
    p.vcpuState = .uninitialized ∧ FreePage s (s.hreg .rcx) 0 T ∧ s.hreg .rcx ≠ s.hreg .rdx ∧
    p.numTdvpx < s.plat.tdvpsBaseSize / 4096 - 1 := by decide +kernel

/-- V182. -/
theorem test_vpAddcx : raxAfter (exec .tdhVpAddcx (vpAddCall 2)) = some 0 ∧
    raxAfter (exec .tdhVpAddcx (vpAddCall 3)) = some 0xC000070300000000 := by decide +kernel

/-- TDH.VP.INIT with RDX 0xABCD. -/
def vpInitCall (p : Tdvps) : State := { built [(.rcx, 0x100020000), (.rdx, 0xABCD)] .present with vps := [(V, p)] }

theorem witness_VpInitCompletes : let s := vpInitCall vcpu
    HostReady s ∧ VcpuOperand s (s.hreg .rcx) T tdr tdcs vcpu ∧ PageTakable s (s.hreg .rcx).toNat ∧
    s.plat.crInitOk = true ∧ tdr.fatal = false ∧ tdr.lifecycle = .keysConfigured ∧
    tdcs.finalized = false ∧ vcpu.vcpuState = .uninitialized ∧ vcpu.numTdvpx = s.plat.tdvpsBaseSize / 4096 - 1 ∧
    s.lp.tscAdjust = s.sampledTscAdjust ∧ tdcs.numVcpus < tdcs.maxVcpus := by decide +kernel

/-- V183, the general registers and XCR0. -/
theorem test_vpInit :
    holdsAfter (fun t => (tblGet t.vps V).any fun p => p.gprs == Gprs.zero.setAll [(.rcx, 0xABCD), (.r8, 0xABCD),
      (.rbx, 0x30), (.rdx, 0x806F8)] && p.xcr0 == 1 && p.vcpuIndex == 0 && p.assocLpid == some 0)
      (exec .tdhVpInit (vpInitCall vcpu)) = true := by decide +kernel

/-- V181, V184, V185. -/
theorem test_vpInit_refuses : raxAfter (exec .tdhVpInit (vpInitCall { vcpu with numTdvpx := 2 })) = some 0xC000070300000000 ∧
    raxAfter (exec .tdhVpInit (vpInitCall readyVcpu)) = some 0xC000070000000000 ∧
    raxAfter (exec .tdhVpInit (withTdcs (vpInitCall vcpu) fun c => { c with numVcpus := 1 })) = some 0xC000070500000000 := by
  decide +kernel

/-- The TDCS once the VCPU is initialised and the TD finalised. -/
def finalTdcs : Tdcs := { tdcs with finalized := true, numVcpus := 1, numAssocVcpus := 1 }

/-- A function with the TDVPR in RCX, on logical processor 2. -/
def vpCall (rdx r8 r9 : Word) (p : Tdvps) : State :=
  onLp2 [(.rcx, 0x100020000), (.rdx, rdx), (.r8, r8), (.r9, r9)] p

/-- Another VCPU of the TD runs on logical processor 3 and holds its entry locks. -/
theorem witness_VpEnterCompletes : ∀ l ∈ [[], entryLocks [] 0x100024000 T],
    ∀ p ∈ [readyVcpu, { readyVcpu with assocLpid := none, lastEpfGpaListIdx := 1, lastEpfGpaList := [0xFFFFF000] }],
    let s := { vpCall 0 0 0 p with locks := l }
    HostReady s ∧ VcpuOperand s (s.hreg .rcx) T tdr finalTdcs p ∧ PageSharable s (s.hreg .rcx).toNat ∧
    Sharable s (.epoch T) ∧ TdUsable tdr ∧ finalTdcs.finalized = true ∧
    (s.plat.entryNeedsSharedEptp = true → p.sharedEptpValid = true) ∧ p.xbuffHeaderOk = true ∧ EntersPlainly s (s.hreg .rcx).toNat p ∧
    p.numTdvpx = s.plat.tdvpsBaseSize / 4096 - 1 ∧ bit s.lp.miscEnable 22 = false ∧
    s.lp.tscAdjust = s.sampledTscAdjust ∧ p.lastExitTsc ≤ s.tsc ∧ Associable s p ∧
    (p.lastEpfGpaListIdx = 0 ∨ Takable s (.sept T) ∧
      ((p.lastEpfGpaList.take p.lastEpfGpaListIdx).all fun g => epfMapped s finalTdcs tdr.hkid g) = true) := by
  decide +kernel

/-- R165: on a build that tests IS_SHARED_EPTP_VALID at entry. -/
theorem test_vpEnter_sharedEptp :
    let call (b : Bool) : State :=
      { vpCall 0 0 0 { readyVcpu with sharedEptpValid := b } with
        plat := { Platform.reference with entryNeedsSharedEptp := true } }
    raxAfter (exec .tdhVpEnter (call false)) = some 0xC00007300000203C ∧
    holdsAfter (fun t => t.lp.curVcpu == some V) (exec .tdhVpEnter (call true)) = true := by decide +kernel

/-- V186, V187, P2 step 9. -/
theorem test_vpEnter :
    holdsAfter (fun t => t.lp.curVcpu == some V && ((tblGet t.vps V).any fun p => p.vcpuState == .active && p.vcpuEpoch == 3)
      && (tblGet t.tdcss T).any fun c => c.refcount1 == 1) (exec .tdhVpEnter (vpCall 0 0 0 readyVcpu)) = true ∧
    raxAfter (exec .tdhVpEnter (vpCall 0 0 0 { readyVcpu with assocLpid := some 3 })) = some 0x8000070100000000 ∧
    raxAfter (exec .tdhVpEnter (withTdcs (vpCall 0 0 0 readyVcpu) fun c => { c with finalized := false }))
      = some 0xC000060200000000 := by decide +kernel

theorem witness_VpFlushCompletes : let s := vpCall 0 0 0 readyVcpu
    HostReady s ∧ VcpuOperand s (s.hreg .rcx) T tdr finalTdcs readyVcpu ∧ PageTakable s (s.hreg .rcx).toNat ∧
    tdr.lifecycle = .keysConfigured ∧
    readyVcpu.numTdvpx = s.plat.tdvpsBaseSize / 4096 - 1 ∧ readyVcpu.assocLpid = some s.curLp := by decide +kernel

/-- V188, V189. -/
theorem test_vpFlush :
    holdsAfter (fun t => ((tblGet t.vps V).any fun p => p.assocLpid == none) && (tblGet t.tdcss T).any fun c =>
      c.numAssocVcpus == 0) (exec .tdhVpFlush (vpCall 0 0 0 readyVcpu)) = true ∧
    raxAfter (exec .tdhVpFlush (vpCall 0 0 0 { readyVcpu with assocLpid := some 3 })) = some 0x8000070200000000 := by
  decide +kernel

theorem witness_VpRdWrComplete : ∀ p ∈ [readyVcpu, { readyVcpu with assocLpid := none }],
    let s := vpCall 0x200000000000000B 1 1 p
    let f : VFieldInfo := ⟨.pendNmi, 1, 1, .always⟩
    let q := p.associated s.plat s.curLp tdr.hkid
    HostReady s ∧ VcpuOperand s (s.hreg .rcx) T tdr finalTdcs p ∧ PageSharable s (s.hreg .rcx).toNat ∧ TdUsable tdr ∧
    p.numTdvpx = s.plat.tdvpsBaseSize / 4096 - 1 ∧ Associable s p ∧
    vcpuField s.plat finalTdcs.xfam finalTdcs.debug (s.hreg .rdx) = some f ∧ f.readMask ≠ 0 ∧
    f.writeMask &&& s.hreg .r9 ≠ 0 ∧
    checkWrite s.plat finalTdcs q (mergeMask (readVField q f.field) (s.hreg .r8) (f.writeMask &&& s.hreg .r9)) f.rule
      = .ok () := by decide +kernel

/-- TDH.VP.RD and TDH.VP.WR of PEND_NMI of a disabled VCPU. -/
def disabledVp : State := vpCall 0x200000000000000B 1 1 { readyVcpu with vcpuState := .disabled }

theorem witness_VpRdWrComplete_disabled :
    let s := disabledVp
    let p := { readyVcpu with vcpuState := .disabled }
    HostReady s ∧ VcpuOperand s (s.hreg .rcx) T tdr finalTdcs p ∧ PageSharable s (s.hreg .rcx).toNat ∧ TdUsable tdr ∧
    p.numTdvpx = s.plat.tdvpsBaseSize / 4096 - 1 ∧ p.vcpuState = .disabled ∧ s.hreg .r9 = 1 ∧
    vcpuField s.plat finalTdcs.xfam finalTdcs.debug (s.hreg .rdx) = some ⟨.pendNmi, 1, 1, .always⟩ := by decide +kernel

/-- R517, D37: TDH.VP.RD and TDH.VP.WR refuse a disabled VCPU; R704: TDH.VP.FLUSH works on it. -/
theorem test_disabledVcpu : raxAfter (exec .tdhVpRd disabledVp) = some 0xC000070000000000 ∧
    raxAfter (exec .tdhVpWr disabledVp) = some 0xC000070000000000 ∧
    raxAfter (exec .tdhVpFlush disabledVp) = some 0 := by decide +kernel

/-- V192, V193. -/
theorem test_vpRd : outAfter .r8 (exec .tdhVpRd (vpCall 0xA000000000000002 7 0 readyVcpu)) = some 0 ∧
    raxAfter (exec .tdhVpRd (vpCall 0xA000000000000002 7 0 readyVcpu)) = some 0 ∧
    raxAfter (exec .tdhVpRd (vpCall 0x1000000000000000 7 0 readyVcpu)) = some 0xC000072100000000 := by decide +kernel

/-- V194. -/
theorem test_vpWr :
    holdsAfter (fun t => (tblGet t.vps V).any fun p => p.pendNmi) (exec .tdhVpWr (vpCall 0x200000000000000B 1 1 readyVcpu))
      = true ∧
    raxAfter (exec .tdhVpWr (vpCall 0x200000000000000B 1 0 readyVcpu)) = some 0xC000072000000000 := by decide +kernel

/-! ## TDG.* (V210 to V229) -/

/-- The TDCS while the VCPU runs in epoch 3. -/
def runTdcs : Tdcs := { finalTdcs with refcount1 := 1 }

/-- A guest register in the next state. -/
def guestAfter (r : Reg) : Outcome → Option Word
  | .next t => (tblGet t.vps V).map fun p => p.gprs.get r
  | _ => none

/-- The vector of the event whose guest handler runs next. -/
def eventAfter : Outcome → Option (Nat × Option Word)
  | .next t => (tblGet t.vps V).bind fun p => p.event
  | _ => none

/-- VE_INFO of an EPT violation. -/
def veInfo : VeInfo := ⟨48, 0xFFFFFFFF, 2, 0xDEAD000, 0x1008, 0, 0, 0⟩

/-- The VCPU runs with a VE_INFO. -/
def veGuest (i : VeInfo) : State := (guest []).modVp V fun p => { p with veInfo := i }

theorem witness_VpInfoCpuidveRules : ∀ m ∈ [3, 4], let s := guest [(.rcx, w64 m)]
    GuestCalls s V T tdr runTdcs (runningVcpu [(.rcx, w64 m)]) ∧
    (m = 3 → bitsOf (runningVcpu [(.rcx, w64 m)]).gprs.rcx 63 2 = 0) ∧
    (m = 4 → bitsOf (runningVcpu [(.rcx, w64 m)]).gprs.rcx 63 2 ≠ 0) := by decide +kernel

theorem witness_VpVeinfoGetRule :
    GuestCalls (veGuest veInfo) V T tdr runTdcs { runningVcpu [] with veInfo := veInfo } ∧ veInfo.valid ≠ 0 ∧
    GuestCalls (guest []) V T tdr runTdcs (runningVcpu []) ∧ (runningVcpu []).veInfo.valid = 0 := by decide +kernel

/-- V210. -/
theorem test_vpInfo : guestAfter .rax (exec .tdgVpInfo (guest [])) = some 0 ∧
    guestAfter .rcx (exec .tdgVpInfo (guest [])) = some 48 ∧
    guestAfter .r8 (exec .tdgVpInfo (guest [])) = some 0x0000000100000001 := by decide +kernel

/-- V6: outside 64-bit mode TDCALL is #GP(0) and writes no register. -/
theorem test_tdcall_mode :
    eventAfter (exec .tdgVpInfo ((guest [(.rax, 1)]).modVp V fun p => p.setVm Vmcs.csAccess 0x8093)) = some (13, some 0) ∧
    guestAfter .rax (exec .tdgVpInfo ((guest [(.rax, 1)]).modVp V fun p => p.setVm Vmcs.csAccess 0x8093)) = some 1 := by
  decide +kernel

/-- V311, V216. -/
theorem test_vpVeinfoGet : guestAfter .rcx (exec .tdgVpVeinfoGet (veGuest veInfo)) = some 0x30 ∧
    guestAfter .r9 (exec .tdgVpVeinfoGet (veGuest veInfo)) = some 0x1008 ∧
    holdsAfter (fun t => (tblGet t.vps V).any fun p => p.veInfo.valid == 0) (exec .tdgVpVeinfoGet (veGuest veInfo)) = true ∧
    guestAfter .rax (exec .tdgVpVeinfoGet (guest [(.rcx, 5)])) = some 0xC000070300000000 ∧
    guestAfter .rcx (exec .tdgVpVeinfoGet (guest [(.rcx, 5)])) = some 0 := by decide +kernel

/-- V217, V218. -/
theorem test_vpCpuidveSet :
    holdsAfter (fun t => (tblGet t.vps V).any fun p => p.cpuidUserVe && !p.cpuidSupervisorVe)
      (exec .tdgVpCpuidveSet (guest [(.rcx, 2)])) = true ∧
    guestAfter .rax (exec .tdgVpCpuidveSet (guest [(.rcx, 4)])) = some 0xC000010000000001 := by decide +kernel

/-- The debuggable guest writes NOTIFY_ENABLES; the next label of the schedule is TDH.MNG.WR of the field whose id is
given, on logical processor 0. -/
def racingWrites (id : Word) : State :=
  let s := withTdcs (guest [(.rdx, 0x9100000000000010), (.r8, 1), (.r9, 1)]) fun c => { c with attributes := 1 }
  { s with
    raceLost := true, schedule := [.call 0]
    lps := s.lps.modify 0 fun l =>
      { l with gprs := Gprs.zero.setAll [(.rax, 13), (.rcx, w64 T), (.rdx, id), (.r9, 1)] } }

theorem witness_VmRdWrComplete : let rs := [(.rdx, 0x9100000000000010), (.r8, 1), (.r9, 1)]
    let r : TdFieldRow := ⟨0x9100000000000010, 1, .notifyEnables, .none, .rw, .rw, 1⟩
    GuestCalls (guest rs) V T tdr runTdcs (runningVcpu rs) ∧ (runningVcpu rs).gprs.rcx = 0 ∧
    tdField (guest rs).plat (runningVcpu rs).gprs.rdx = some (r, 0) ∧ r.guest.reads = true ∧ r.guest.writes = true ∧
    r.writeMask &&& (runningVcpu rs).gprs.r9 ≠ 0 ∧ (guest rs).raceLost = false := by decide +kernel

/-- A write that loses the race, and one that does not because the other agent writes another field. -/
theorem witness_VmRdWrComplete_race : let rs := [(.rdx, 0x9100000000000010), (.r8, 1), (.r9, 1)]
    (∀ id ∈ ([0x9100000000000010, 0x9100000000000011] : List Word).map BitVec.toNat, let s := racingWrites (w64 id)
      GuestCalls s V T tdr { runTdcs with attributes := 1 } (runningVcpu rs) ∧ s.raceLost = true ∧
      (fieldContended (s.tdcallEntered V) T (runningVcpu rs).gprs.rdx = true ↔ id = 0x9100000000000010)) ∧
    guestAfter .rax (exec .tdgVmWr (racingWrites 0x9100000000000010)) = some 0x8000020000000090 ∧
    guestAfter .rax (exec .tdgVmWr (racingWrites 0x9100000000000011)) = some 0 := by decide +kernel

theorem witness_VmRdWrComplete_rtmr : let rs := [(.rdx, 0x1300000000000057)]
    let r : TdFieldRow := ⟨0x1300000000000040, 24, .rtmr, .none, .ro, .ro, 0⟩
    GuestCalls (guest rs) V T tdr runTdcs (runningVcpu rs) ∧ (runningVcpu rs).gprs.rcx = 0 ∧
    tdField (guest rs).plat (runningVcpu rs).gprs.rdx = some (r, 23) ∧ r.guest.reads = true ∧
    lockState (guest rs).locks (.rtmr T) ≠ some .exclusive := by decide +kernel

/-- V224, V225. -/
theorem test_vmRd : guestAfter .r8 (exec .tdgVmRd (guest [(.rdx, 0x1100000000000002)])) = some 1 ∧
    guestAfter .rax (exec .tdgVmRd (guest [(.rdx, 0x1100000000000004), (.r8, 5)])) = some 0xC000072100000000 ∧
    guestAfter .r8 (exec .tdgVmRd (guest [(.rdx, 0x1100000000000004), (.r8, 5)])) = some 0 := by decide +kernel

/-- V226, V227. -/
theorem test_vmWr :
    holdsAfter (fun t => (tblGet t.tdcss T).any fun c => c.notifyEnables == 1)
      (exec .tdgVmWr (guest [(.rdx, 0x9100000000000010), (.r8, 1), (.r9, 1)])) = true ∧
    guestAfter .rax (exec .tdgVmWr (guest [(.rdx, 0x1100000000000002), (.r8, 1), (.r9, 1)])) = some 0xC000072000000000 := by
  decide +kernel

theorem witness_RtmrExtendCompletes : let rs := [(.rcx, 0xFFFFF040), (.rdx, 3)]
    GuestCalls (guest rs) V T tdr runTdcs (runningVcpu rs) ∧ isAligned (runningVcpu rs).gprs.rcx.toNat 64 = true ∧
    runTdcs.privateGpa (runningVcpu rs).gprs.rcx.toNat = true ∧ (runningVcpu rs).gprs.rdx.toNat < 4 ∧
    Takable (guest rs) (.rtmr T) ∧ isPrivateHkid (guest rs).plat tdr.hkid = true ∧
    privateWalk (guest rs) runTdcs tdr.hkid (runningVcpu rs).gprs.rcx.toNat = .ok 0x100100040 0 ∧
    poisoned (guest rs) tdr.hkid 0x100100040 48 = false := by decide +kernel

/-- V215. -/
theorem test_mrRtmrExtend : guestAfter .rax (exec .tdgMrRtmrExtend (guest [(.rcx, 0xFFFFF040), (.rdx, 2)])) = some 0 ∧
    guestAfter .rax (exec .tdgMrRtmrExtend (guest [(.rcx, 0xFFFFF040), (.rdx, 4)])) = some 0xC000010000000002 ∧
    guestAfter .rax (exec .tdgMrRtmrExtend (guest [(.rcx, 0xFFFFF020)])) = some 0xC000010000000001 ∧
    guestAfter .rax (exec .tdgMrRtmrExtend (guest [(.rcx, 0x800000000000)])) = some 0xC000010000000001 := by
  decide +kernel

theorem witness_MrReportCompletes : let rs := [(.rcx, 0xFFFFF400), (.rdx, 0xFFFFF000)]
    GuestCalls (guest rs) V T tdr runTdcs (runningVcpu rs) ∧ isAligned (runningVcpu rs).gprs.rcx.toNat 1024 = true ∧
    runTdcs.legalGpa (runningVcpu rs).gprs.rcx.toNat = true ∧ isAligned (runningVcpu rs).gprs.rdx.toNat 64 = true ∧
    runTdcs.legalGpa (runningVcpu rs).gprs.rdx.toNat = true ∧ (runningVcpu rs).gprs.r8 = 0 ∧
    Sharable (guest rs) (.rtmr T) ∧
    guestGpa (guest rs) tdr runTdcs (runningVcpu rs) (runningVcpu rs).gprs.rdx.toNat .read = .ok ⟨0x100100000, 33, false⟩ ∧
    guestRead (guest rs) ⟨0x100100000, 33, false⟩ 64 = .ok (List.replicate 64 0) ∧
    guestGpa (guest rs) tdr runTdcs (runningVcpu rs) (runningVcpu rs).gprs.rcx.toNat .write = .ok ⟨0x100100400, 33, false⟩ ∧
    guestBacked (guest rs).plat 33 0x100100400 1024 = true := by decide +kernel

/-- V228. -/
theorem test_mrReport :
    guestAfter .rax (exec .tdgMrReport (guest [(.rcx, 0xFFFFF400), (.rdx, 0xFFFFF000)])) = some 0 ∧
    guestAfter .rax (exec .tdgMrReport (guest [(.rcx, 0xFFFFF400), (.rdx, 0xFFFFF000), (.r8, 1)]))
      = some 0xC000010000000008 := by decide +kernel

/-- The VCPU runs with PG1 pending at GPA 0x1000 and a pending 2MB page at GPA 0x200000. -/
def acceptCall (rcx : Word) : State :=
  { guest [(.rcx, rcx)] with
    sept := tblSet (tblSet (treeWith .present) 0x100012008 ⟨.pending, true, 0x100101000⟩) 0x100011008
      ⟨.pending, true, 0x100200000⟩ }

theorem witness_PageAcceptCompletes : let s := acceptCall 0x1000
    let p := runningVcpu [(.rcx, 0x1000)]
    let e : SeptPos := ⟨0x100012008, 0, ⟨.pending, true, 0x100101000⟩⟩
    GuestCalls s V T tdr runTdcs p ∧ p.accept = none ∧ s.lp.yieldAt = none ∧ bitsOf p.gprs.rcx 11 3 = 0 ∧
    bitsOf p.gprs.rcx 63 52 = 0 ∧
    bitsOf p.gprs.rcx 2 0 = 0 ∧ bitsOf p.gprs.rcx 51 12 * 4096 = 0x1000 ∧ runTdcs.privateGpa 0x1000 = true ∧
    isAligned 0x1000 (2 ^ (12 + 9 * 0)) = true ∧ septWalk s runTdcs tdr.hkid 0x1000 (some 0) = .ok e ∧
    e.entry.state = .pending ∧ e.entry.leaf = true ∧ lockState s.locks (.septEntry e.addr) = none := by decide +kernel

theorem witness_PageAcceptCompletes_2mb : let s := acceptCall 0x200001
    let p := runningVcpu [(.rcx, 0x200001)]
    let e : SeptPos := ⟨0x100011008, 1, ⟨.pending, true, 0x100200000⟩⟩
    GuestCalls s V T tdr runTdcs p ∧ p.accept = none ∧ s.lp.yieldAt = none ∧ bitsOf p.gprs.rcx 11 3 = 0 ∧
    bitsOf p.gprs.rcx 63 52 = 0 ∧
    bitsOf p.gprs.rcx 2 0 = 1 ∧ bitsOf p.gprs.rcx 51 12 * 4096 = 0x200000 ∧ runTdcs.privateGpa 0x200000 = true ∧
    isAligned 0x200000 (2 ^ (12 + 9 * 1)) = true ∧ septWalk s runTdcs tdr.hkid 0x200000 (some 1) = .ok e ∧
    e.entry.state = .pending ∧ e.entry.leaf = true ∧ lockState s.locks (.septEntry e.addr) = none ∧
    s.lp.intrPending = none := by decide +kernel

/-- The same VCPU between its walk and its compare-and-exchange: the entry is locked, and the host has blocked it. -/
def acceptRaced : State :=
  let s := acceptCall 0x1000
  { s.modVp V fun p => { p with accept := some ⟨0, 0x1000, 0x100012008, 0, 0x100101000, 1⟩ } with
    sept := tblSet s.sept 0x100012008 ⟨.pendingBlocked, true, 0x100101000⟩
    locks := (.septEntry 0x100012008, .exclusive) :: s.locks }

theorem witness_PageAcceptCompletes_raced : let s := acceptRaced
    let r : AcceptRun := ⟨0, 0x1000, 0x100012008, 0, 0x100101000, 1⟩
    GuestCalls s V T tdr runTdcs { runningVcpu [(.rcx, 0x1000)] with accept := some r } ∧
    r.done = 512 ^ r.reqLevel ∧ s.lp.yieldAt = none ∧ s.lp.intrPending = none ∧ s.lp.apicModeOk = true ∧
    septAt s r.entry ≠ ⟨.pending, true, r.hpa⟩ ∧ linePoison s tdr.hkid (r.entry / 64) = false ∧
    entryLocksHeld (release s.locks (.septEntry r.entry)) V T = true := by decide +kernel

/-- R541: the exit of a lost compare-and-exchange records the length of TDCALL (log entry 33). -/
theorem test_acceptExit : holdsAfter (fun t => (tblGet t.vps V).any fun p =>
    p.vm Vmcs.exitReason == 48 && p.vm Vmcs.exitInstrLength == 4) (exec .tdgMemPageAccept acceptRaced) = true := by
  decide +kernel

theorem witness_PageAcceptCompletes_poisoned : let s := corruptLine acceptRaced (0x100012008 / 64)
    let r : AcceptRun := ⟨0, 0x1000, 0x100012008, 0, 0x100101000, 1⟩
    GuestCalls s V T tdr runTdcs { runningVcpu [(.rcx, 0x1000)] with accept := some r } ∧
    r.done = 512 ^ r.reqLevel ∧ s.lp.yieldAt = none ∧ s.lp.intrPending = none ∧
    linePoison s tdr.hkid (r.entry / 64) = true := by decide +kernel

/-- R276, R284: the acceptance that lost the race for its entry, first letting the others act, then its TD exit. -/
theorem test_memPageAccept_raced : raxAfter (exec .tdgMemPageAccept acceptRaced) = some 0x30 ∧
    holdsAfter (fun t => t.lp.curVcpu == some V && lockState t.locks (.septEntry 0x100011008) == some .exclusive &&
        (tblGet t.vps V).any fun p => p.accept == some ⟨1, 0x200000, 0x100011008, 1, 0x100200000, 2⟩)
      (exec .tdgMemPageAccept ((acceptCall 0x200001).modLp fun l => { l with yieldAt := some 2 })) = true := by
  decide +kernel

/-- V219, V222, V223. -/
theorem test_memPageAccept :
    holdsAfter (fun t => septAt t 0x100012008 == ⟨.present, true, 0x100101000⟩ && readBytes t 33 0x100101000 2 == [0, 0])
      (exec .tdgMemPageAccept (acceptCall 0x1000)) = true ∧
    guestAfter .rax (exec .tdgMemPageAccept (acceptCall 0xFFFFF000)) = some 0x00000B0A00000000 ∧
    guestAfter .rax (exec .tdgMemPageAccept (acceptCall 1)) = some 0xC0000B0B00000001 ∧
    guestAfter .rax (exec .tdgMemPageAccept (acceptCall 0x1800)) = some 0xC000010000000001 := by decide +kernel

/-- V220, V221: a free entry is a TD exit with the extended exit qualification. -/
theorem test_memPageAccept_exits : raxAfter (exec .tdgMemPageAccept (acceptCall 0x2000)) = some 0x30 ∧
    outAfter .rdx (exec .tdgMemPageAccept (acceptCall 0x2000)) = some 1 ∧
    outAfter .r8 (exec .tdgMemPageAccept (acceptCall 0x2000)) = some 0x2000 ∧
    outAfter .rdx (exec .tdgMemPageAccept (acceptCall 0x400001)) = some 0x0000000900000001 := by decide +kernel

theorem witness_VmcallReturnsToHost : let rs := [(.rcx, 0x0C00), (.r11, 0x1234)]
    GuestCalls (guest rs) V T tdr runTdcs (runningVcpu rs) ∧
    (runningVcpu rs).gprs.rcx &&& 0xFFFFFFFF00000013 = 0 ∧ entryLocksHeld (guest rs).locks V T = true := by decide +kernel

/-- V211, V212. -/
theorem test_vpVmcall : raxAfter (exec .tdgVpVmcall (guest [(.rcx, 0x0C00), (.r11, 0x1234), (.r12, 9)])) = some 0x4D ∧
    outAfter .r11 (exec .tdgVpVmcall (guest [(.rcx, 0x0C00), (.r11, 0x1234), (.r12, 9)])) = some 0x1234 ∧
    outAfter .r12 (exec .tdgVpVmcall (guest [(.rcx, 0x0C00), (.r11, 0x1234), (.r12, 9)])) = some 0 ∧
    guestAfter .rax (exec .tdgVpVmcall (guest [(.rcx, 0x0C02)])) = some 0xC000010000000001 := by decide +kernel

/-! ## The step, the encoding, reset and the invariant -/

theorem witness_StepRunsDecoded : State.reset.boundaryFirst = none ∧ State.reset.schedule = [] ∧
    decode State.reset.side State.reset.callRax = .ok .tdhVpEnter ∧
    (let s := State.reset.withFetchWord 64 34
     s.boundaryFirst = none ∧ decode s.side s.callRax = .error (.unsupportedLeaf .seamcall 34)) ∧
    (let s := { State.reset with schedule := [.call 0, .call 1] }
     s.schedule = .call s.curLp :: [.call 1] ∧ s.curLp < s.lps.length) ∧
    (let s := guest [(.rax, 1)]
     s.boundaryFirst = none ∧ decode s.side s.callRax = .ok .tdgVpInfo) := by decide +kernel

/-- The first step after reset runs the instruction that RAX names: here TDH.SYS.INIT. -/
theorem test_step_after_reset :
    holdsAfter (fun t => t.sysState == .sysinitDone && t.tick == 1) (step (State.reset.withFetchWord 64 33)) = true ∧
    raxAfter (step (State.reset.withFetchWord 64 9)) = some 0xC000050500000000 ∧
    raxAfter (step (State.reset.withFetchWord 64 34)) = some 0xC000010000000000 := by decide +kernel

theorem test_decodeTableWord : decodeTableWord 64 45 = some .tdhSysConfig ∧ decodeTableWord 8 43 = some .tdhVpWr ∧
    decodeTableWord 64 34 = none := by decide +kernel

theorem witness_DecodeInvertsEncode :
    decodeBytes .tdcall [8, 0, 0, 0, 0, 0, 0, 0, 7] = .ok (.tdgVmWr, [7]) ∧ Instr.wellFormed .tdcall .tdgVmWr = true ∧
    [8, 0, 0, 0, 0, 0, 0, 0, 7] = encodeBytes .tdgVmWr ++ [7] := by decide +kernel

/-- No TD holds an HKID where there is no TD. -/
theorem hkidsDistinct_of_noTd {s : State} (h : s.tdrs = []) : HkidsDistinct s :=
  ⟨fun _ _ => h, fun _ _ e => absurd (h ▸ e) nofun, fun _ _ _ _ e => absurd (h ▸ e) nofun⟩

/-- The TD of the tests alone holds HKID 33. -/
theorem built_hkidsDistinct : HkidsDistinct (built [] .present) := by
  have only : ∀ a t, tblGet (built [] .present).tdrs a = some t → a = T ∧ t = tdr := by
    intro a t h
    simp only [built, tblGet] at h
    split at h
    · next e => exact ⟨e.symm, (Option.some.inj h).symm⟩
    · cases h
  refine ⟨fun h _ => absurd rfl h, fun a t h _ => ?_, fun a b t u h1 h2 _ _ _ => ?_⟩
  · rw [(only a t h).2]
    decide +kernel
  · rw [(only a t h1).1, (only b u h2).1]

theorem witness_StepKeepsInv : Inv State.reset ∧
    holdsAfter (fun t => t.sysState == .sysinitDone) (step (State.reset.withFetchWord 64 33)) = true ∧
    Inv (State.reset.withFetchWord 64 33) ∧ Inv (createCall 33) ∧
    holdsAfter (fun t => t.mem.wf) (exec .tdhMngCreate (createCall 33)) = true ∧ Inv (built [] .present) := by
  refine ⟨⟨?_, ?_, hkidsDistinct_of_noTd rfl⟩, ?_, ⟨?_, ?_, hkidsDistinct_of_noTd rfl⟩,
    ⟨?_, ?_, hkidsDistinct_of_noTd rfl⟩, ?_, ?_, ?_, built_hkidsDistinct⟩ <;> decide +kernel

/-- TDX has been disabled, and a label is scheduled. -/
def disabled (ls : List Label) : State := { State.reset with seamDisabled := true, schedule := ls }

theorem witness_DisabledUntilPlatformReset : (disabled []).seamDisabled = true ∧
    holdsAfter (fun t => t.seamDisabled) (step (disabled [])) = true ∧
    holdsAfter (fun t => !t.seamDisabled) (step (disabled [.env .platformReset])) = true := by decide +kernel

theorem witness_SeamcallRefusals :
    (let s := disabled []
     s.curLp < s.lps.length ∧ s.lp.shutdown = false ∧ s.lp.curVcpu = none ∧ s.lp.memWr = none ∧ s.seamDisabled = true) ∧
    (let s := State.reset.modLp fun l => { l with seamcallBlocked := true }
     s.curLp < s.lps.length ∧ s.lp.shutdown = false ∧ s.lp.curVcpu = none ∧ s.lp.memWr = none ∧ s.seamDisabled = false ∧
      s.lp.seamcallBlocked = true) ∧
    (let s := { State.reset with sysState := .sysShutdown }
     HostCalls s ∧ s.sysState = .sysShutdown ∧ Instr.tdhSysInfo ≠ .tdhSysLpShutdown) ∧
    (HostCalls State.reset ∧ State.reset.sysState ≠ .sysReady ∧ State.reset.sysState ≠ .sysShutdown ∧
      Instr.tdhMngCreate ∉ [Instr.tdhSysInfo, .tdhSysInit, .tdhSysLpInit, .tdhSysConfig, .tdhSysKeyConfig,
        .tdhSysLpShutdown]) := by decide +kernel

theorem witness_SeamcallRefusals_tdcall :
    (let p := (runningVcpu []).setVm Vmcs.csAccess 0x8093
     let s := (guest []).modVp V fun p => p.setVm Vmcs.csAccess 0x8093
     RunsGuest s V T tdr runTdcs p ∧ Instr.tdgVpInfo.side = .tdcall ∧ p.in64 = false ∧ intercepted s V 13 = false) ∧
    RunsGuest (guest []) V T tdr runTdcs (runningVcpu []) ∧ (runningVcpu []).in64 = true := by decide +kernel

/-- R321 and R486: at a shutdown the outputs of TDH.SYS.INIT are 0, and the registers of TDH.MNG.RD are left alone. -/
theorem test_shutdown_outputs :
    let s := { State.reset with sysState := .sysShutdown }.modLp fun l =>
      { l with gprs := { l.gprs with rcx := 1, r8 := 2, r10 := 3, r11 := 4 } }
    holdsAfter (fun t => t.lp.gprs == { s.lp.gprs with rax := 0xC000050600000000, rcx := 0, rdx := 0, r8 := 0, r10 := 0 })
      (exec .tdhSysInit s) = true ∧
    holdsAfter (fun t => t.lp.gprs == { s.lp.gprs with rax := 0xC000050600000000 }) (exec .tdhMngRd s) = true := by
  decide +kernel

/-- V77, and VMfailInvalid once TDX is disabled. -/
theorem test_refusals :
    raxAfter (exec .tdhSysInfo (State.reset.modLp fun l => { l with seamcallBlocked := true })) = some 0xC000050600000000 ∧
    holdsAfter (fun t => t.lp.rflags == 3 && t.lp.rip == 0xFFF4) (exec .tdhSysInfo (disabled [])) = true ∧
    raxAfter (exec .tdhMngCreate { State.reset with sysState := .sysShutdown }) = some 0xC000050600000000 := by
  decide +kernel

/-! ## Frames -/

theorem witness_HostRegisterFrame : Instr.tdhMngCreate.side = .seamcall ∧ HostCalls (createCall 33) ∧
    holdsAfter (fun t => !t.seamDisabled && t.lp.curVcpu == none) (exec .tdhMngCreate (createCall 33)) = true ∧
    (let s := chunkCall 0xFFFFF008 5 true
     HostCalls s ∧ s.lp.memWr = none ∧
      holdsAfter (fun t => !t.seamDisabled && t.lp.curVcpu == none && t.lp.memWr == none) (exec .tdhMemWr s) = true) := by
  decide +kernel

theorem witness_HostErrorChangesNothing : Instr.tdhMngCreate.side = .seamcall ∧ Instr.tdhMngCreate ≠ .tdhPhymemCacheWb ∧
    HostCalls (createCall 32) ∧ holdsAfter (fun t => !t.seamDisabled && t.lp.curVcpu == none && bit t.lp.gprs.rax 63)
      (exec .tdhMngCreate (createCall 32)) = true := by decide +kernel

/-- A TDH.VP.ENTER that fails, of a VCPU without a pending debug exception. -/
theorem witness_HostErrorChangesNothing_enter : let p := { readyVcpu with assocLpid := some 3 }
    let s := vpCall 0 0 0 p
    HostCalls s ∧ tblGet s.vps (s.hreg .rcx).toNat = some p ∧ EntersPlainly s (s.hreg .rcx).toNat p ∧
    holdsAfter (fun t => !t.seamDisabled && t.lp.curVcpu == none && bit t.lp.gprs.rax 63) (exec .tdhVpEnter s) = true := by
  decide +kernel

theorem witness_HostMemoryUntouched : HostCalls (mapCall 0x1000 0x100030000 tree) ∧
    holdsAfter (fun _ => true) (exec .tdhMemPageAug (mapCall 0x1000 0x100030000 tree)) = true ∧ HostCalls (tdKeyCall 0 0) ∧
    holdsAfter (fun _ => true) (exec .tdhMngKeyConfig (tdKeyCall 0 0)) = true ∧
    tblGet (tdKeyCall 0 0).tdrs ((tdKeyCall 0 0).hreg .rcx).toNat = some (newTdr 0) ∧
    HostCalls (mapCall 0xFFFFF000 0 (treeWith .blocked)) ∧
    holdsAfter (fun _ => true) (exec .tdhMemPageRemove (mapCall 0xFFFFF000 0 (treeWith .blocked))) = true ∧
    HostCalls (keyCall 0 0) ∧ holdsAfter (fun _ => true) (exec .tdhSysKeyConfig (keyCall 0 0)) = true := by decide +kernel

theorem witness_HostPageStoresStayInside : HostCalls (createCall 33) ∧ (createCall 33).mem.wf = true ∧
    holdsAfter (fun _ => true) (exec .tdhMngCreate (createCall 33)) = true ∧
    (let s := mapCall 0x200001 0x100030000 tree
     HostCalls s ∧ s.mem.wf = true ∧ holdsAfter (fun _ => true) (exec .tdhMemSeptAdd s) = true ∧ 0 < 65536 ∧
      ¬((s.hreg .r8).toNat ≤ 0x100031000 ∧ 0x100031000 < (s.hreg .r8).toNat + 4096)) := by decide +kernel

theorem witness_GuestFunctionFrame : Instr.tdgVpInfo.side = .tdcall ∧
    GuestCalls (guest []) V T tdr runTdcs (runningVcpu []) ∧
    holdsAfter (fun t => t.lp.curVcpu == some V && !t.seamDisabled) (exec .tdgVpInfo (guest [])) = true := by decide +kernel

/-! ## Exceptions, events and what the guest sees (V260 to V310) -/

theorem witness_VeInjection :
    ∀ i ∈ [VeInfo.empty, veInfo], let s := veGuest i
      s.seamDisabled = false ∧ tblGet s.vps V = some { runningVcpu [] with veInfo := i } ∧
      structuresReadable s V = true ∧ intercepted s V 20 = false ∧ intercepted s V 8 = false := by decide +kernel

/-- Loads from a pending page, from a free page, and from a shared GPA whose Shared EPT has no entry. -/
theorem witness_VeInjection_load : let s := acceptCall 0
    let p := runningVcpu [(.rcx, 0)]
    GuestActs s V T tdr runTdcs p ∧
    (∀ gpa ∈ [0x1008, 0x12345678, 0x800000001000], runTdcs.legalGpa gpa = true) ∧
    translate s tdr runTdcs p 0x1008 .read false = .violation false true 0 ∧
    translate s tdr runTdcs p 0x12345678 .read false = .violation true true 0 ∧
    translate s tdr runTdcs p 0x800000001000 .read false = .violation false false 0 ∧ p.veInfo.valid = 0 ∧
    p.excExits 20 none = false ∧ s.lp.apicModeOk = true ∧ entryLocksHeld s.locks V T = true ∧
    p.possiblyEpfStepping + 1 ≤ s.plat.epfThreshold := by decide +kernel

/-- A load from a pending page while the guest has not read VE_INFO. -/
theorem witness_VeInjection_load_unread : let s := (acceptCall 0).modVp V fun p => { p with veInfo := veInfo }
    let p := { runningVcpu [(.rcx, 0)] with veInfo := veInfo }
    GuestActs s V T tdr runTdcs p ∧ runTdcs.legalGpa 0x1008 = true ∧
    translate s tdr runTdcs p 0x1008 .read false = .violation false true 0 ∧ p.veInfo.valid ≠ 0 ∧
    s.lp.apicModeOk = true ∧ entryLocksHeld s.locks V T = true ∧ p.possiblyEpfStepping + 1 ≤ s.plat.epfThreshold ∧
    raxAfter (guestStep s (loadOf [⟨0x1008, 0x1008, 8⟩])) = some 0x30 := by decide +kernel

/-- V281 and V310: #VE with the exit reason, and #DF while VE_INFO is not yet read. -/
theorem test_ve : eventAfter (guestStep (guest []) (.ve .hlt ⟨1, 0, 0, 0⟩)) = some (20, none) ∧
    holdsAfter (fun t => (tblGet t.vps V).any fun p => p.veInfo.exitReason == 12 && p.veInfo.valid == 0xFFFFFFFF)
      (guestStep (guest []) (.ve .hlt ⟨1, 0, 0, 0⟩)) = true ∧
    eventAfter (guestStep (veGuest veInfo) (.ve .hlt ⟨1, 0, 0, 0⟩)) = some (8, some 0) := by decide +kernel

theorem witness_UnconditionalUndefinedOpcodes : let s := guest []
    GuestActs s V T tdr runTdcs (runningVcpu []) ∧ bit ((runningVcpu []).vm Vmcs.exceptionBitmap) 6 = false ∧
    Instr.tdhSysInit.side = .seamcall ∧ tblGet s.vps V = some (runningVcpu []) ∧ structuresReadable s V = true ∧
    intercepted s V 6 = false := by decide +kernel

theorem test_ud : eventAfter (guestStep (guest []) (.ud .vmlaunch ⟨3, 0, 0, 0⟩)) = some (6, none) ∧
    eventAfter (exec .tdhSysInit (guest [(.rax, 33)])) = some (6, none) ∧
    guestAfter .rax (exec .tdhSysInit (guest [(.rax, 33)])) = some 33 := by decide +kernel

theorem witness_ExternalInterruptExits : let s := guest []
    RunsGuest s V T tdr runTdcs (runningVcpu []) ∧ (runningVcpu []).accept = none ∧ s.lp.apicModeOk = true ∧
    entryLocksHeld s.locks V T = true ∧ (runningVcpu []).isNotification 255 = false := by decide +kernel

/-- V300, V301, V304. -/
theorem test_events : raxAfter (eventStep (guest []) (.externalInterrupt 0x31)) = some 1 ∧
    outAfter .r9 (eventStep (guest []) (.externalInterrupt 0x31)) = some 0x80000031 ∧
    outAfter .r9 (eventStep (guest []) .nmi) = some 0x80000202 ∧
    raxAfter (eventStep (guest []) .tripleFault) = some 0x4000000100000002 ∧
    raxAfter (eventStep (guest []) .machineCheck) = some 0x4000000500000000 := by decide +kernel

/-- R642: the exits that the CPU may choose to make need the control that a debugger set, here "PAUSE-loop exiting". -/
theorem test_debugExit : (∀ b ∈ ([7, 14, 29, 37, 40, 46, 52, 57, 58, 61, 62, 63] : List Nat),
      (runningVcpu []).debugExitOn b = false) ∧
    ((runningVcpu []).setVm Vmcs.secondary 0x400).debugExitOn 40 = true ∧
    eventEnabled { runTdcs with attributes := 1 } (runningVcpu []) (.debugExit (VmExit.plain 40)) = false := by
  decide +kernel

/-- The guest of a debuggable TD with one TD VMCS field changed. -/
def debugged (rs : List (Reg × Word)) (field : Nat) (x : Word) : State :=
  withTdcs ({ guest rs with vps := [(V, (runningVcpu rs).setVm field x)] }) fun c => { c with attributes := 1 }

/-- R642: with its control set an instruction makes the exit; without it the instruction executes. PAUSE, INVLPG, RDRAND, LGDT,
TPAUSE with "RDTSC exiting" (not enabled: #UD), LOADIWKEY (CR4.KL 0: #UD). -/
theorem test_controlled : let op (i : CtlInstr) : GuestOp := .controlled i ⟨3, 0, 0, 0⟩ [] [] false false
    raxAfter (guestStep (debugged [] Vmcs.procbased 0x40000000) (op .pause)) = some 40 ∧
    raxAfter (guestStep (debugged [] Vmcs.procbased 0x200) (op .invlpg)) = some 14 ∧
    raxAfter (guestStep (debugged [] Vmcs.secondary 0x800) (op .rdrand)) = some 57 ∧
    raxAfter (guestStep (debugged [] Vmcs.secondary 4) (op (.tableLoad false))) = some 46 ∧
    holdsAfter (fun t => (tblGet t.vps V).any fun p => p.vm Vmcs.rip == 0x1003) (guestStep (guest []) (op .pause)) = true ∧
    eventAfter (guestStep (debugged [] Vmcs.procbased 0x1000) (op .tpause)) = some (6, none) ∧
    eventAfter (guestStep (debugged [] Vmcs.tertiary 1) (op .loadiwkey)) = some (6, none) := by decide +kernel

/-- R642: LOADIWKEY and UMWAIT exit when they are enabled; XSAVES only for a component of the XSS-exiting bitmap. -/
theorem test_controlled_exiting :
    CtlInstr.exiting ((runningVcpu []).setVm Vmcs.tertiary 1) .loadiwkey = true ∧
    CtlInstr.exiting ((runningVcpu []).setVm Vmcs.procbased 0x1000) .umwait = true ∧
    CtlInstr.reason .umwait = 67 ∧ CtlInstr.reason .tpause = 68 ∧ CtlInstr.reason .loadiwkey = 69 ∧
    (let p := { (runningVcpu [(.rax, 0x100)]).setVm 0x202C 0x100 with msrs := [(0xDA0, 0x100)] }
     CtlInstr.exiting p .xsaves = true ∧ CtlInstr.exiting { p with msrs := [] } .xrstors = false) := by decide +kernel

/-- R642: under the monitor trap flag an instruction executes and its exit then comes before the next one, a TDCALL among them;
an instruction that the module emulates makes no such exit, an exception that it injects does. -/
theorem test_monitorTrap : let s := debugged [] Vmcs.procbased 0x08000000
    let trapped (o : Outcome) : Bool := holdsAfter (fun t => (tblGet t.vps V).any fun p => p.mtfPending) o
    trapped (guestStep s (.other [.rip 0x1005])) = true ∧ trapped (guestStep s .cpuid) = false ∧
    trapped (guestStep s (.ud .rsm ⟨2, 0, 0, 0⟩)) = true ∧
    holdsAfter (fun t => raxAfter (guestStep t .cpuid) == some 37 && raxAfter (callStep t) == some 37 &&
        raxAfter (eventStep t (.externalInterrupt 0x31)) == some 37 && raxAfter (eventStep t .initSignal) == some 3)
      (guestStep s (.other [.rip 0x1005])) = true := by decide +kernel

/-- R642: an open interrupt window that a debugger asked for is an exit before the next instruction; with RFLAGS.IF 0 it is
closed. -/
theorem test_interruptWindow :
    holdsAfter (fun t => t.lp.curVcpu == some V) (guestStep (debugged [] Vmcs.procbased 4) .cpuid) = true ∧
    (let s := debugged [] Vmcs.procbased 4
     raxAfter (guestStep { s with vps := [(V, ((runningVcpu []).setVm Vmcs.procbased 4).setVm Vmcs.rflags 0x202)] } .cpuid)
       = some 7) := by decide +kernel

/-- R613: SENDUIPI has written the virtual APIC page and advanced RIP when its #VE comes. -/
theorem test_senduipi : let p := { (runningVcpu []).setVm Vmcs.cr4 0x02042060 with xfam := 0x4003 }
    holdsAfter (fun t => (tblGet t.vps V).any fun q =>
        regGet q.vapic (0x300 / 8) == 0xF3 && q.vm Vmcs.rip == 0x1004 && q.event == some (20, none) &&
          q.veInfo.exitReason == 56 && q.veInfo.exitQualification == 0x300)
      (guestStep { guest [] with vps := [(V, p)] } (.senduipi 4 0x300 0xF3)) = true := by decide +kernel

/-- R130, R132: the number of CPUID_VALUES entries and the field code of MRTD_CONTEXT are the build's. -/
theorem test_fieldParameters : let p := { Platform.reference with numCpuidValues := 49, mrtdContextCode := some 0x60 }
    ((tdField p 0x9100000000000461).map fun r => (r.1.field, r.2)) = some (.cpuidValues, 97) ∧
    tdField Platform.reference 0x9100000000000461 = none ∧
    ((tdField p 0x9300000000000062).map fun r => (r.1.field, r.2)) = some (.mrtdContext, 2) := by decide +kernel

/-- A guest in 32-bit mode, about to take #DE. -/
def legacyVcpu : Tdvps := { (runningVcpu []).setVm Vmcs.efer 0x901 with event := some (0, none) }

/-- A VCPU whose last VM exit was a task switch, with the IDT-vectoring information given. -/
def switched (info : Word) : Tdvps :=
  readyVcpu.setVms [(Vmcs.exitReason, 9), (Vmcs.exitQualification, 0x40000028), (Vmcs.idtVectoring, info)]

/-- R636: a task switch incidental to the delivery of #DE exits with the event recorded, and the next TDH.VP.ENTER, which
attempts the delivery again, exits with the same reason; without such an event it enters. -/
theorem test_taskSwitch :
    eventEnabled runTdcs legacyVcpu (.taskSwitch 0x40000028 0x80000300 0) = true ∧
    eventEnabled runTdcs legacyVcpu (.taskSwitch 0x40000028 0x80000306 0) = false ∧
    holdsAfter (fun t => t.lp.curVcpu == none && t.lp.gprs.rax == 9)
      (eventStep { guest [] with vps := [(V, legacyVcpu)] } (.taskSwitch 0x40000028 0x80000300 0)) = true ∧
    holdsAfter (fun t => (tblGet t.vps V).any fun p => p.reattempts)
      (eventStep { guest [] with vps := [(V, legacyVcpu)] } (.taskSwitch 0x40000028 0x80000300 0)) = true ∧
    holdsAfter (fun t => t.lp.curVcpu == none && t.lp.gprs.rax == 9 && t.lp.gprs.rcx == 0x40000028)
      (exec .tdhVpEnter (vpCall 0 0 0 (switched 0x80000300))) = true ∧
    holdsAfter (fun t => t.lp.curVcpu == some V) (exec .tdhVpEnter (vpCall 0 0 0 (switched 0))) = true := by
  decide +kernel

/-- R725 (d): a pending NMI comes before what a guest instruction causes, a TD exit from outside may come first. -/
theorem test_nmiFirst : let s := { guest [] with vps := [(V, { (runningVcpu []).setVm Vmcs.procbased 0x400000 with pendNmi := true })] }
    eventAfter (eventStep s (.pasidFailure false)) = some (2, none) ∧
    raxAfter (eventStep s (.externalInterrupt 0x31)) = some 1 := by decide +kernel

/-- R635: #UD without "enable user-level wait and pause", for ENCLU, and with CR4.KL 0. -/
theorem test_moreUd : (∀ op ∈ [GuestOp.umonitor [], .enclu, .keyLocker []],
      eventAfter (guestStep (guest []) op) = some (6, none)) ∧
    eventAfter (guestStep { guest [] with vps := [(V, (runningVcpu []).setVm Vmcs.secondary 0x4000000)] }
      (.umonitor [.gpr .rax 1])) = none := by decide +kernel

/-- R660: an address that is not canonical, a memory type that does not exist, a reserved bit. -/
theorem test_wrmsrIllegal : (∀ e ∈ [(0xC0000082, 0x8000000000000000), (0xC0000100, 0x0100000000000000), (0x277, 2),
      (0xC0000103, 0x100000000), (0x6A0, 0x40)], wrmsrIllegal Platform.reference e.1 (w64 e.2) = true) ∧
    (∀ e ∈ [(0xC0000082, 0xFFFF800000001000), (0x277, 0x0007040600070406), (0xC0000103, 5)],
      wrmsrIllegal Platform.reference e.1 (w64 e.2) = false) := by decide +kernel

/-- A store by the guest. -/
def storeAt (gpa : Nat) : GuestOp := .mem [⟨.write .rbx, [⟨0xDEAD000, gpa, 8⟩]⟩] [] 4 false true false

/-- V302, V307: a free private GPA is a TD exit, a pending one #VE. -/
theorem test_eptViolation : raxAfter (guestStep (acceptCall 0) (storeAt 0x12345678)) = some 0x30 ∧
    outAfter .r8 (guestStep (acceptCall 0) (storeAt 0x12345678)) = some 0x12345000 ∧
    eventAfter (guestStep (acceptCall 0) (storeAt 0x1008)) = some (20, none) ∧
    holdsAfter (fun t => (tblGet t.vps V).any fun p => p.veInfo.gpa == 0x1008 && p.veInfo.exitReason == 48)
      (guestStep (acceptCall 0) (storeAt 0x1008)) = true := by decide +kernel

/-- The guest's store is read back under the TD's HKID (P3 step 7). -/
theorem test_guest_store :
    holdsAfter (fun t => readBytes t 33 0x100100008 8 == [0x88, 0x77, 0x66, 0x55, 0x44, 0x33, 0x22, 0x11])
      (guestStep (guest [(.rbx, 0x1122334455667788)]) (storeAt 0xFFFFF008)) = true := by decide +kernel

theorem witness_MemoryReadAfterWrite : (33 : Nat) < 65536 ∧ (createCall 33).mem.wf = true ∧
    0x100000000 % 64 = 0 ∧ (List.replicate 64 (5 : Byte)).length % 64 = 0 ∧
    isPrivateHkid (createCall 33).plat 31 = false ∧ (tagAt (createCall 33).mem (0x100000000 / 64)).td = true ∧
    tblGet (createCall 33).mem.cache (cacheKey (0x100000000 / 64) 31) = none := by decide +kernel

theorem witness_MemoryReadAfterWrite_host : let s := ready []
    s.curLp < s.lps.length ∧ s.lp.shutdown = false ∧ s.lp.curVcpu = none ∧ s.lp.memWr = none ∧
    hostAddressOk s.plat 0x80000000 8 = true ∧ sharedUc s 0x80000000 8 = false ∧
    hostAddressOk s.plat 0x210100000000 8 = false := by decide +kernel

theorem witness_MemoryReadAfterWrite_guest : let s := guest [(.rbx, 5)]
    let p := runningVcpu [(.rbx, 5)]
    GuestActs s V T tdr runTdcs p ∧ runTdcs.legalGpa 0xFFFFF008 = true ∧
    effectiveUc s.plat false 33 0x100100008 8 = false ∧
    translate s tdr runTdcs p 0xFFFFF008 .write false = .ok 0x100100008 33 false (some (0, false, 7)) ∧
    translate s tdr runTdcs p 0xFFFFF008 .read false = .ok 0x100100008 33 false (some (0, false, 7)) ∧
    poisoned s 33 0x100100008 8 = false := by decide +kernel

/-- R279: a device writes while a guest runs, and the write is read under its HKID; an atomic exchange returns the old
value (R277). -/
theorem test_dma_and_xchg :
    holdsAfter (fun t => readBytes t 0 0x80000000 2 == [7, 8] && t.lp.curVcpu == some V)
      (envStep (guest []) (.dmaWrite 0x80000000 [7, 8])) = true ∧
    guestAfter .rbx (guestStep (guest [(.rbx, 9)])
      (.mem [⟨.update (.xchg .rbx), [⟨0, 0xFFFFF008, 8⟩]⟩] [] 3 false false false)) = some 0 := by decide +kernel

/-- What an atomic operation leaves in two bytes that hold 0x00FF, and in RBX and RCX (the SDM's definitions; R277). -/
theorem test_atomics :
    let g := { Gprs.zero with rax := 0x500FF, rbx := 0x10002, rcx := 7, rdx := 1 }
    let at16 := fun (f : RmwFn) (carry : Bool) => leBytes 2 (f.stored 2 carry g 0xFF).toNat
    at16 .inc false = [0x00, 0x01] ∧ at16 .dec false = [0xFE, 0x00] ∧ at16 .neg false = [0x01, 0xFF] ∧
    at16 .not false = [0x00, 0xFF] ∧ at16 (.alu .adc (.imm 1)) true = [0x01, 0x01] ∧
    at16 (.alu .sbb (.reg .rbx)) true = [0xFC, 0x00] ∧ at16 (.bitTest .set (.imm 24)) false = [0xFF, 0x01] ∧
    at16 (.bitTest .reset (.reg .rbx)) false = [0xFB, 0x00] ∧ at16 (.bitTest .complement (.reg .rcx)) false = [0x7F, 0x00] ∧
    at16 (.cmpxchg .rbx) false = [0x02, 0x00] ∧ (RmwFn.registers (.cmpxchg .rbx) 2 0xFF g).rax = 0x500FF ∧
    (RmwFn.stored (.cmpxchg .rbx) 2 false g 0xFE) = 0xFE ∧ (RmwFn.registers (.cmpxchg .rbx) 2 0xFE g).rax = 0xFE ∧
    (RmwFn.stored .cmpxchgPair 8 false g 0x1000500FF) = 0x700010002 ∧
    (RmwFn.stored .cmpxchgPair 16 false g 0x500FF) = 0x500FF ∧
    (RmwFn.registers .cmpxchgPair 16 (0x3 <<< 64 ||| 0x9) g).rax = 9 ∧
    (RmwFn.registers .cmpxchgPair 16 (0x3 <<< 64 ||| 0x9) g).rdx = 3 := by decide +kernel

/-- R746: a GPA joins the list at LAST_EPF_GPA_LIST_IDX, and the elements above stay. -/
theorem test_recordEpf :
    let p := { runningVcpu [] with lastEpfGpaList := [1, 2, 3], lastEpfGpaListIdx := 0 }
    (p.recordEpf 0x5123 4).lastEpfGpaList = [0x5000, 2, 3] ∧ (p.recordEpf 0x5123 4).lastEpfGpaListIdx = 1 := by decide +kernel

theorem test_memory : let s := writeCached (createCall 33) 33 0x10000003E [1, 2, 3]
    readBytes s 33 0x10000003D 5 = [0, 1, 2, 3, 0] ∧ readByte s 0 0x10000003E = 0 ∧ s.mem.wf = true ∧
    readBytes (writeDirect s 33 0x100000000 (List.replicate 64 5)) 33 0x10000003E 3 = [5, 5, 3] := by decide +kernel

/-- The TDCS with the CPUID values that TDH.MNG.INIT gave it. -/
def cpuidTdcs : Tdcs := { runTdcs with cpuidValues := (Tdcs.created State.reset params 0x100004000).cpuidValues }

/-- The guest that is about to execute CPUID. -/
def cpuidGuest (rs : List (Reg × Word)) : State :=
  withTdcs (guest rs) fun c => { c with cpuidValues := (Tdcs.created State.reset params 0x100004000).cpuidValues }

theorem witness_CpuidFixedLeaves : cpuidTdcs.cpuidValues = (Tdcs.created State.reset params 0x100004000).cpuidValues := rfl

theorem witness_CpuidFixedLeaves_guest : let rs := [(Reg.rax, 0x100000021), (.rcx, 0)]
    GuestActs (cpuidGuest rs) V T tdr cpuidTdcs (runningVcpu rs) ∧ (runningVcpu rs).cpuidVe = false ∧
    ∃ r, cpuidVirtual (cpuidGuest rs).plat (runningVcpu rs) cpuidTdcs (lo32 (runningVcpu rs).gprs.rax).toNat
      (lo32 (runningVcpu rs).gprs.rcx).toNat = some r :=
  ⟨⟨⟨by decide +kernel, by decide +kernel, by decide +kernel, by decide +kernel, rfl, by decide +kernel, rfl, rfl,
    by decide +kernel⟩, rfl, by decide +kernel⟩, by decide +kernel, _, rfl⟩

theorem witness_CpuidFixedLeaves_ve : let rs := [(Reg.rax, 0x21), (.rcx, 1)]
    GuestActs (cpuidGuest rs) V T tdr cpuidTdcs (runningVcpu rs) ∧ (runningVcpu rs).cpuidVe = false ∧
    cpuidVirtual (cpuidGuest rs).plat (runningVcpu rs) cpuidTdcs (lo32 (runningVcpu rs).gprs.rax).toNat
      (lo32 (runningVcpu rs).gprs.rcx).toNat = none :=
  ⟨⟨⟨by decide +kernel, by decide +kernel, by decide +kernel, by decide +kernel, rfl, by decide +kernel, rfl, rfl,
    by decide +kernel⟩, rfl, by decide +kernel⟩, by decide +kernel, by decide +kernel⟩

/-- XSETBV with an index and a value. -/
def xsetbvCall (index value : Word) : State := guest [(.rcx, index), (.rax, value)]

theorem witness_ExtendedStateStaysInsideXfam : let s := xsetbvCall 0 7
    let p := runningVcpu [(.rcx, 0), (.rax, 7)]
    GuestActs s V T tdr runTdcs p ∧ intercepted s V 13 = false ∧ p.cpl = 0 ∧ bit (p.vm Vmcs.cr4) 18 = true ∧
    lo32 p.gprs.rcx = 0 ∧ p.gprs.pair &&& ~~~p.xfam ≠ 0 ∧
    holdsAfter (fun t => (tblGet t.vps V).any fun q => q.xcr0 != p.xcr0) (guestStep (xsetbvCall 0 3) .xsetbv) = true := by
  decide +kernel

/-- V277. -/
theorem test_xsetbv :
    holdsAfter (fun t => (tblGet t.vps V).any fun p => p.xcr0 == 3) (guestStep (xsetbvCall 0 3) .xsetbv) = true ∧
    eventAfter (guestStep (xsetbvCall 0 7) .xsetbv) = some (13, some 0) ∧
    eventAfter (guestStep (xsetbvCall 0 2) .xsetbv) = some (13, some 0) ∧
    eventAfter (guestStep (xsetbvCall 1 3) .xsetbv) = some (13, some 0) := by decide +kernel

/-- The running guest with the CR0 and CR4 masks and shadows of TDH.VP.INIT. -/
def crVcpu : Tdvps :=
  let p := (runningVcpu []).setVm Vmcs.cr0Mask (cr0MaskFor Platform.reference)
  let p := (p.setVm Vmcs.cr0Shadow (cr0ShadowFor Platform.reference)).setVm Vmcs.cr4Mask
    (cr4MaskFor Platform.reference tdcs)
  p.setVm Vmcs.cr4Shadow (cr4ShadowFor Platform.reference)

/-- The state in which it runs. -/
def crGuest : State := { guest [] with vps := [(V, crVcpu)] }

theorem witness_ExtendedStateStaysInsideXfam_cr :
    GuestActs crGuest V T tdr runTdcs crVcpu ∧ intercepted crGuest V 13 = false ∧ crVcpu.cpl = 0 ∧
    (∀ b ∈ [22, 23, 25], let x := 0x40020 ||| bitAt true b
      crExits (crVcpu.vm Vmcs.cr4Mask) (crVcpu.vm Vmcs.cr4Shadow) x = true ∧ bit x b = true) ∧
    bit crVcpu.xfam 9 = false ∧ (bit crVcpu.xfam 11 && bit crVcpu.xfam 12) = false ∧ bit crVcpu.xfam 14 = false ∧
    crExits (crVcpu.vm Vmcs.cr0Mask) (crVcpu.vm Vmcs.cr0Shadow) 0x20000021 = true ∧ cr0Verdict crVcpu 0x20000021 = .gp := by
  decide +kernel

/-- A guest whose debugger has put CR0.WP and CR4.OSFXSR under the masks: a legal value that changes one of them exits. -/
def maskedVcpu : Tdvps :=
  (crVcpu.setVm Vmcs.cr0Mask (cr0MaskFor Platform.reference ||| 0x10000)).setVm Vmcs.cr4Mask
    (cr4MaskFor Platform.reference tdcs ||| 0x200)

theorem witness_ExtendedStateStaysInsideXfam_legal : let s := { guest [] with vps := [(V, maskedVcpu)] }
    GuestActs s V T tdr runTdcs maskedVcpu ∧ intercepted s V 13 = false ∧ maskedVcpu.cpl = 0 ∧
    crExits (maskedVcpu.vm Vmcs.cr0Mask) (maskedVcpu.vm Vmcs.cr0Shadow) 0x80010021 = true ∧
    cr0Verdict maskedVcpu 0x80010021 = .ok ∧
    crExits (maskedVcpu.vm Vmcs.cr4Mask) (maskedVcpu.vm Vmcs.cr4Shadow) 0x40260 = true ∧
    cr4Verdict s.plat runTdcs maskedVcpu 0x40260 = .ok := by decide +kernel

/-- V273 to V275 on the running guest (paging on, CR4.PAE 1). -/
theorem test_controlRegisters : eventAfter (guestStep crGuest (.movToCr0 0x80000021 ⟨3, 0, 0, 0⟩)) = none ∧
    eventAfter (guestStep crGuest (.movToCr0 0x20000021 ⟨3, 0, 0, 0⟩)) = some (13, some 0) ∧
    eventAfter (guestStep crGuest (.movToCr4 0x1000060 ⟨3, 0, 0, 0⟩)) = some (13, some 0) := by decide +kernel

/-- The VCPU that executes RDMSR or WRMSR. -/
def msrVcpu (index value : Word) : Tdvps := runningVcpu [(.rcx, index), (.rax, value)]

/-- The TDCS with the TD's MSR bitmaps. -/
def msrTdcs : Tdcs := { runTdcs with msrBitmaps := msrBitmaps runTdcs }

/-- Its state. -/
def msrGuest (index value : Word) : State :=
  withTdcs (guest [(.rcx, index), (.rax, value)]) fun c => { c with msrBitmaps := msrBitmaps c }

/-- RDMSR or WRMSR with the TD's MSR bitmaps. -/
def msrCall (write : Bool) (index value : Word) : Outcome :=
  guestStep (msrGuest index value) (if write then .wrmsr else .rdmsr)

theorem witness_ExtendedStateStaysInsideXfam_msr :
    (∀ value ∈ [0x100, 0], let s := msrGuest 0xDA0 (w64 value)
      let p := msrVcpu 0xDA0 (w64 value)
      GuestActs s V T tdr msrTdcs p ∧ intercepted s V 13 = false ∧ (lo32 p.gprs.rcx).toNat = 0xDA0 ∧
      (value = 0x100 ↔ p.gprs.pair &&& ~~~(p.xfam &&& 0x1FD00) ≠ 0)) ∧
    msrExits msrTdcs 1 0xDA0 = true ∧
    (∀ e ∈ [(0x560, 8), (0x572, 8), (0x587, 8), (0x98A, 14)],
      bit msrTdcs.xfam e.2 = false ∧ msrExits msrTdcs 0 e.1 = true ∧ msrExits msrTdcs 1 e.1 = true) := by decide +kernel

theorem witness_ExtendedStateStaysInsideXfam_lbr : ∀ e ∈ [(0x12FF, 15), (0x14CF, 15), (0x1500, 15), (0x16FF, 15)],
    bit msrTdcs.xfam e.2 = false ∧ msrExits msrTdcs 0 e.1 = true ∧ msrExits msrTdcs 1 e.1 = true := by decide +kernel

theorem witness_ExtendedStateStaysInsideXfam_cet : (bit msrTdcs.xfam 11 || bit msrTdcs.xfam 12) = false ∧
    ∀ i ∈ [0x6A0, 0x6A2, 0x6A8], msrExits msrTdcs 0 i = true ∧ msrExits msrTdcs 1 i = true := by decide +kernel

/-- V267 to V272, V280. -/
theorem test_msr : eventAfter (msrCall false 0x480 0) = some (13, some 0) ∧
    eventAfter (msrCall false 0x3A 0) = some (20, none) ∧ eventAfter (msrCall true 0x10 5) = some (20, none) ∧
    eventAfter (msrCall true 0x808 0x20) = none ∧ eventAfter (msrCall true 0x1D9 0x2008) = some (13, some 0) := by
  decide +kernel

/-- V260, V262. -/
theorem test_cpuid : eventAfter (guestStep (guest [(.rax, 0x21), (.rcx, 1)]) .cpuid) = some (20, none) ∧
    eventAfter (guestStep (guest [(.rax, 0xB)]) .cpuid) = some (20, none) ∧
    guestAfter .rax (guestStep (guest [(.rax, 0x22)]) .cpuid) = some 0 := by decide +kernel

/-- R689, N37: CPUID(7, 0).EDX bit 30 is what the platform's parameter says; the other bits are the table's. -/
theorem test_cpuid_edx30 :
    let edx := fun b => (cpuidCalculated { Platform.reference with cpuid7Edx30 := b } 3 0 (cpuidRows2.headD (.zero 0 none))
      ⟨0, 0, 0, 0xE4000000⟩).edx
    edx true = 0xE4000000 ∧ edx false = 0xA4000000 := by decide +kernel

/-- R575: the other sub-leaves of leaf 0x21 return zeros on a build that follows it. -/
theorem test_cpuid_othersZero :
    let s := guest [(.rax, 0x21), (.rcx, 1), (.rbx, 5), (.rdx, 7)]
    let after := guestStep { s with plat := { s.plat with cpuid21OthersZero := true } } .cpuid
    eventAfter after = none ∧ [Reg.rax, .rbx, .rcx, .rdx].all (fun r => guestAfter r after == some 0) = true := by
  decide +kernel

/-- R710, the row of a guest-side flow: TDG.MR.REPORT that reads a pending page gives #VE with the length of TDCALL, 4,
and instruction information 0. -/
theorem test_mrReport_ve :
    holdsAfter (fun t => (tblGet t.vps V).any fun p =>
        p.veInfo == ⟨48, 0xFFFFFFFF, 1, 0, 0x1000, 0, 4, 0⟩ && p.event == some (20, none))
      (exec .tdgMrReport { acceptCall 0xFFFFF400 with
        vps := [(V, runningVcpu [(.rcx, 0xFFFFF400), (.rdx, 0x1000)])] }) = true := by decide +kernel

end Sys2Proof.Tests
end

section
/-! PROOFS. Every step keeps the invariant of `StepKeepsInv` (O46, O47): a rule for each operation on the state says what
it keeps; what a function, a call and a step keep follows from the operations they are made of. -/

namespace Sys2Proof.Machine

open Safety

/-! ## One TD per HKID -/

/-- Where there is no TD, no TD holds an HKID. -/
theorem hkidsDistinct_of_tdrs_nil {s : State} (h : s.tdrs = []) : HkidsDistinct s :=
  ⟨fun _ _ => h, fun _ _ e => absurd (h ▸ e) nofun, fun _ _ _ _ e => absurd (h ▸ e) nofun⟩

/-- A table in which no key has an entry is empty. -/
theorem table_eq_nil {α : Type} {t : Table α} (h : ∀ i, tblGet t i = none) : t = [] := by
  cases t with
  | nil => rfl
  | cons e t => exact absurd (h e.1) (by simp [tblGet])

/-- The key ownership table says that a TD holds the HKID: HKID_ASSIGNED or HKID_FLUSHED (R52). -/
abbrev HkidTaken (s : State) (h : Nat) : Prop := (kotAt s h).state = .assigned ∨ (kotAt s h).state = .flushed

theorem kotAt_setKot (s : State) (k j : Nat) (e : KotEntry) :
    kotAt (s.setKot k e) j = if k = j then e else kotAt s j := by
  rw [kotAt, State.setKot, tblGet_tblSet]
  split <;> rfl

/-- One TD per HKID stays when no TD gains an HKID and the key ownership table keeps the taken ones. -/
theorem hkidsDistinct_mono {s t : State} (h : HkidsDistinct s) (hsys : t.sysState = s.sysState)
    (hkot : ∀ k, HkidTaken s k → HkidTaken t k)
    (htds : ∀ a y, tblGet t.tdrs a = some y →
      ∃ x, tblGet s.tdrs a = some x ∧ (HoldsHkid y → HoldsHkid x ∧ x.hkid = y.hkid)) : HkidsDistinct t where
  noTdBeforeReady := by
    intro h1 h2
    rw [hsys] at h1 h2
    refine table_eq_nil fun i => ?_
    cases hi : tblGet t.tdrs i with
    | none => rfl
    | some y =>
      obtain ⟨x, hx, _⟩ := htds i y hi
      rw [h.noTdBeforeReady h1 h2] at hx
      cases hx
  held := by
    intro a y hy hold
    obtain ⟨x, hx, hxy⟩ := htds a y hy
    obtain ⟨hold', e⟩ := hxy hold
    exact hkot _ (e ▸ h.held a x hx hold')
  distinct := by
    intro a b y z hy hz holdy holdz e
    obtain ⟨x, hx, hxy⟩ := htds a y hy
    obtain ⟨w, hw, hwz⟩ := htds b z hz
    obtain ⟨k1, e1⟩ := hxy holdy
    obtain ⟨k2, e2⟩ := hwz holdz
    exact h.distinct a b x w hx hw k1 k2 (e1.trans (e.trans e2.symm))

/-! ## What a part of a step keeps -/

/-- Every clause of `Inv` that holds before holds after, and the time-stamp counter is not turned back. -/
structure Keeps (s t : State) : Prop where
  mem : s.mem.wf = true → t.mem.wf = true
  lps : s.lps.length = s.plat.lps.length → t.lps.length = t.plat.lps.length
  hkids : HkidsDistinct s → HkidsDistinct t
  tsc : s.tsc ≤ t.tsc

/-- Two states that agree on all that the invariant and the clock read, but for memory's content. -/
structure AgreeButMem (s t : State) : Prop where
  plat : t.plat = s.plat := by rfl
  lps : t.lps.length = s.lps.length := by rfl
  sysState : t.sysState = s.sysState := by rfl
  kot : t.kot = s.kot := by rfl
  tdrs : t.tdrs = s.tdrs := by rfl
  tsc : t.tsc = s.tsc := by rfl

theorem AgreeButMem.hkids {s t : State} (h : AgreeButMem s t) (hs : HkidsDistinct s) : HkidsDistinct t :=
  hkidsDistinct_mono hs h.sysState (fun k hk => by rwa [HkidTaken, kotAt, h.kot])
    (fun a y hy => ⟨y, by rwa [← h.tdrs], fun hold => ⟨hold, rfl⟩⟩)

theorem AgreeButMem.keeps {s t : State} (h : AgreeButMem s t) (hm : s.mem.wf = true → t.mem.wf = true) : Keeps s t where
  mem := hm
  lps := by rw [h.lps, h.plat]; exact id
  hkids := h.hkids
  tsc := by rw [h.tsc]; exact BitVec.le_refl _

namespace Keeps

protected theorem refl (s : State) : Keeps s s := ⟨id, id, id, BitVec.le_refl _⟩

protected theorem trans {s t u : State} (h : Keeps s t) (k : Keeps t u) : Keeps s u :=
  ⟨k.mem ∘ h.mem, k.lps ∘ h.lps, k.hkids ∘ h.hkids, BitVec.le_trans h.tsc k.tsc⟩

theorem inv {s t : State} (h : Keeps s t) (hs : Inv s) : Inv t ∧ s.tsc ≤ t.tsc := by
  obtain ⟨hm, hl, hd⟩ := hs
  exact ⟨⟨h.mem hm, h.lps hl, h.hkids hd⟩, h.tsc⟩

end Keeps

/-! ## The operations on the state, one rule each

Each rule extends what is kept up to `t` by one operation on `t`, so that the proof about a function is the chain of
the function's own operations. -/

namespace Keeps

protected theorem ite {c : Prop} {_ : Decidable c} {s x y : State} (hx : Keeps s x) (hy : Keeps s y) :
    Keeps s (if c then x else y) := by
  split
  · exact hx
  · exact hy

section
variable {s t : State} (h : Keeps s t)
include h

/-- An update of what neither the invariant nor the clock reads. -/
protected theorem agree {u : State} (a : AgreeButMem t u) (hm : u.mem = t.mem := by rfl) : Keeps s u :=
  h.trans (a.keeps fun k => by rwa [hm])

/-- An update of memory alone. -/
protected theorem onlyMem {u : State} (hf : ∃ m, u = { t with mem := m }) (hm : t.mem.wf = true → u.mem.wf = true) :
    Keeps s u := by
  obtain ⟨m, rfl⟩ := hf
  exact h.trans (AgreeButMem.keeps {} hm)

/-! ### Records and tables -/

protected theorem modLpAt {i : Nat} {f : Lp → Lp} : Keeps s (t.modLpAt i f) :=
  h.agree { lps := by simp [State.modLpAt] }

protected theorem modLp {f : Lp → Lp} : Keeps s (t.modLp f) := h.modLpAt

protected theorem modVp {v : Nat} {f : Tdvps → Tdvps} : Keeps s (t.modVp v f) := h.agree {}

protected theorem modTdcs {a : Nat} {f : Tdcs → Tdcs} : Keeps s (t.modTdcs a f) := h.agree {}

/-- A TDR changed so that its TD gains no HKID. -/
protected theorem modTdr {a : Nat} {f : Tdr → Tdr}
    (hf : ∀ x, tblGet t.tdrs a = some x → HoldsHkid (f x) → HoldsHkid x ∧ x.hkid = (f x).hkid := by
      exact fun _ _ hold => ⟨hold, rfl⟩) : Keeps s (t.modTdr a f) := by
  refine h.trans ⟨id, id, fun k => hkidsDistinct_mono k rfl (fun _ => id) fun b y hy => ?_, BitVec.le_refl _⟩
  rw [State.modTdr, tblGet_tblMod] at hy
  split at hy
  · rename_i e
    obtain ⟨x, hx, rfl⟩ := Option.map_eq_some_iff.1 hy
    exact ⟨x, hx, hf x (e ▸ hx)⟩
  · exact ⟨y, hy, fun hold => ⟨hold, rfl⟩⟩

/-- A write of the key ownership table that says of no HKID that a TD holds that it is free or reserved. -/
protected theorem setKot {k : Nat} {e : KotEntry}
    (he : HkidsDistinct s → ∀ a x, tblGet t.tdrs a = some x → HoldsHkid x → x.hkid = k →
      e.state = .assigned ∨ e.state = .flushed) : Keeps s (t.setKot k e) := by
  refine ⟨h.mem, h.lps, fun hs => ⟨(h.hkids hs).noTdBeforeReady, fun a x hx hold => ?_, (h.hkids hs).distinct⟩, h.tsc⟩
  rw [kotAt_setKot]
  split
  · rename_i hk
    exact he hs a x hx hold hk.symm
  · exact (h.hkids hs).held a x hx hold

/-- A new TD with an HKID that the key ownership table has just assigned and that no other TD holds. -/
protected theorem newTdr {a : Nat} {y : Tdr} (hr : t.sysState = .sysReady) (ht : HkidTaken t y.hkid)
    (hno : HkidsDistinct s → ∀ b x, tblGet t.tdrs b = some x → HoldsHkid x → x.hkid ≠ y.hkid) :
    Keeps s { t with tdrs := tblSet t.tdrs a y } := by
  refine ⟨h.mem, h.lps, fun hs => ⟨fun h1 _ => absurd hr h1, fun b x hx hold => ?_, fun b c x z hx hz k1 k2 e => ?_⟩,
    h.tsc⟩
  · simp only [tblGet_tblSet] at hx
    split at hx
    · cases hx; exact ht
    · exact (h.hkids hs).held b x hx hold
  · simp only [tblGet_tblSet] at hx hz
    split at hx <;> split at hz
    · rename_i e1 e2
      exact e1.symm.trans e2
    · cases hx
      exact absurd e.symm (hno hs c z hz k2)
    · cases hz
      exact absurd e (hno hs b x hx k1)
    · exact (h.hkids hs).distinct b c x z hx hz k1 k2 e

protected theorem setPamt {a level : Nat} {e : PamtEntry} : Keeps s (t.setPamt a level e) :=
  h.agree ⟨by simp, by simp, by simp, by simp, by simp, by simp⟩ (by simp)

protected theorem assignPage {a level : Nat} {pt : PageType} {owner : Nat} : Keeps s (t.assignPage a level pt owner) :=
  h.setPamt

protected theorem assignPages {a level : Nat} {pt : PageType} {owner n : Nat} :
    Keeps s (assignPages t a level pt owner n) := by
  induction n with
  | zero => exact h
  | succ n ih => exact ih.assignPage

protected theorem setBepoch {a level : Nat} {e : Word} : Keeps s (t.setBepoch a level e) := h.setPamt

protected theorem addStale {a n hkid : Nat} : Keeps s (t.addStale a n hkid) :=
  h.onlyMem ⟨_, rfl⟩ (addStale_wf a n hkid)

protected theorem freePage {a level : Nat} : Keeps s (t.freePage a level) := by
  unfold State.freePage
  split
  · exact h.addStale.setPamt
  · exact h.setPamt

protected theorem freePages {a level n : Nat} : Keeps s (freePages t a level n) := by
  induction n with
  | zero => exact h
  | succ n ih => exact ih.freePage

protected theorem setSept {a : Nat} {e : SeptEntry} : Keeps s (t.setSept a e) := h.agree {}

protected theorem clearSeptPage {page : Nat} : Keeps s (t.clearSeptPage page) := h.agree {}

protected theorem fillSeptPage {page : Nat} {f : Nat → SeptEntry} : Keeps s (t.fillSeptPage page f) := h.agree {}

protected theorem setWbt {scope : Nat} {e : WbtEntry} : Keeps s (t.setWbt scope e) := h.agree {}

/-- A reclaimed page's structure is dropped: no TD gains an HKID. -/
protected theorem forget {a : Nat} {pt : PageType} : Keeps s (t.forget a pt) := by
  unfold State.forget
  split
  · refine h.trans ⟨id, id, fun k => hkidsDistinct_mono k rfl (fun _ => id) fun b y hy => ?_, BitVec.le_refl _⟩
    rw [tblGet_tblDel] at hy
    split at hy
    · cases hy
    · exact ⟨y, hy, fun hold => ⟨hold, rfl⟩⟩
  · exact h.agree {}
  · exact h

/-! ### Memory -/

protected theorem writeDirect {hkid a : Nat} {bs : List Byte} : Keeps s (writeDirect t hkid a bs) :=
  h.onlyMem ⟨_, rfl⟩ (writeDirect_wf hkid a bs)

protected theorem zeroDirect {hkid a n : Nat} : Keeps s (zeroDirect t hkid a n) :=
  h.onlyMem ⟨_, rfl⟩ (zeroDirect_wf hkid a n)

protected theorem writeBack {pkg hkid line : Nat} {bs : List Byte} : Keeps s (writeBack t pkg hkid line bs) :=
  h.onlyMem ⟨_, rfl⟩ (writeBack_wf pkg hkid line bs)

protected theorem writeCached {hkid a : Nat} {bs : List Byte} : Keeps s (writeCached t hkid a bs) :=
  h.onlyMem ⟨_, rfl⟩ (writeCached_wf hkid a bs)

protected theorem writeUncached {hkid a : Nat} {bs : List Byte} : Keeps s (writeUncached t hkid a bs) :=
  h.onlyMem (writeUncached_frame t hkid a bs) (writeUncached_wf hkid a bs)

protected theorem writeDma {hkid a : Nat} {bs : List Byte} : Keeps s (writeDma t hkid a bs) :=
  h.onlyMem (writeDma_frame t hkid a bs) (writeDma_wf hkid a bs)

protected theorem writeTyped {uc : Bool} {hkid a : Nat} {bs : List Byte} : Keeps s (writeTyped t uc hkid a bs) :=
  .ite h.writeUncached h.writeCached

protected theorem writeShared {a : Nat} {bs : List Byte} : Keeps s (writeShared t a bs) := h.writeTyped

protected theorem guestWrite {o : GuestOperand} {bs : List Byte} : Keeps s (guestWrite t o bs) := h.writeTyped

protected theorem evict {line hkid : Nat} : Keeps s (evict t line hkid) :=
  h.onlyMem (evict_frame t line hkid) (evict_wf line hkid)

protected theorem cleanEntries {es : List (Nat × CacheEntry)} : Keeps s (cleanEntries t es) :=
  h.onlyMem (cleanEntries_frame t es) (cleanEntries_wf es)

protected theorem flushEntries {es : List (Nat × CacheEntry)} : Keeps s (flushEntries t es) :=
  h.onlyMem (flushEntries_frame t es) (flushEntries_wf es)

protected theorem flushStale {scope : Nat} : Keeps s (flushStale t scope) :=
  h.onlyMem (flushStale_frame t scope) (flushStale_wf scope)

protected theorem flushStaleLines {hkid : Nat} {ls : List Nat} : Keeps s (flushStaleLines t hkid ls) :=
  h.onlyMem (flushStaleLines_frame t hkid ls) (flushStaleLines_wf hkid ls)

protected theorem writeBackScope {scope : Nat} : Keeps s (writeBackScope t scope) := h.cleanEntries.flushStale

protected theorem flushPage {hkid a : Nat} : Keeps s (flushPage t hkid a) := h.flushEntries.flushStaleLines

/-! ### How SEAMCALL ends, TD exits, machine checks -/

protected theorem hostReturn {v d : Nat} {o : List (Reg × Word)} : Keeps s (hostReturn t v d o) := h.modLp

protected theorem vmfailInvalid : Keeps s (vmfailInvalid t) := h.modLp

protected theorem blockedReturn : Keeps s (blockedReturn t) := h.modLp

protected theorem setSeamDisabled {b : Bool} : Keeps s { t with seamDisabled := b } := h.agree {}

protected theorem setLocks {l : Locks} : Keeps s { t with locks := l } := h.agree {}

protected theorem setCurLp {i : Nat} : Keeps s { t with curLp := i } := h.agree {}

protected theorem fatalShutdown : Keeps s (fatalShutdown t) := h.setSeamDisabled.modLp.vmfailInvalid

protected theorem stopLp {i : Nat} : Keeps s (stopLp t i) := h.setSeamDisabled.modLpAt

protected theorem asyncTdExit {v : Nat} {x : VmExit} {cls : ExitClass} {q : Word} :
    Keeps s (asyncTdExit t v x cls q) := by
  unfold asyncTdExit
  dsimp only
  split
  · refine .ite (Keeps.modLp (Keeps.setLocks (h.modVp.modTdcs.modTdr fun y _ hold => ?_))) h.fatalShutdown
    revert hold
    cases (exitClass t cls).tdScope <;> exact fun hold => ⟨hold, rfl⟩
  · exact h.fatalShutdown

omit h in
protected theorem broadcastExit {x : VmExit} {is : List Nat} {t : State} (h : Keeps s t) :
    Keeps s (broadcastExit x t is) := by
  induction is generalizing t with
  | nil => exact h
  | cons i is ih =>
    unfold broadcastExit
    split
    · exact .ite (ih h.stopLp) (ih h.setCurLp.asyncTdExit)
    · exact ih (.ite h.stopLp h)
    · exact ih h

protected theorem broadcastOthers {x : VmExit} : Keeps s (broadcastOthers t x) := .ite h h.broadcastExit.setCurLp

protected theorem unbreakableShutdown : Keeps s (unbreakableShutdown t) := h.broadcastOthers.stopLp

protected theorem finishHost {r : Fn State} (hr : Answers r (Keeps s)) : Keeps s (finishHost t r) := by
  unfold finishHost
  split
  · exact hr _ rfl
  · exact h.hostReturn
  · exact h.unbreakableShutdown
  · exact h.fatalShutdown

/-! ### VM exits of a guest -/

protected theorem serveExit {v : Nat} {u : State} (hu : Keeps s u) : Keeps s (serveExit t v u) :=
  .ite h.modLp (.ite hu h.unbreakableShutdown)

protected theorem guestFault {v vector : Nat} {x : VmExit} {e : Option Word} : Keeps s (guestFault t v x vector e) :=
  h.serveExit (.ite h.asyncTdExit h.modVp)

protected theorem guestVe {v : Nat} {x : VmExit} : Keeps s (guestVe t v x) := by
  unfold guestVe
  split
  · exact h
  · exact .ite h.guestFault (.ite h.guestFault (h.serveExit h.modVp))

protected theorem guestExit {v : Nat} {x : VmExit} {cls : ExitClass} {q : Word} : Keeps s (guestExit t v x cls q) :=
  h.serveExit h.asyncTdExit

protected theorem unexpectedExit {v : Nat} {x : VmExit} : Keeps s (unexpectedExit t v x) := by
  refine h.serveExit ?_
  split
  · exact .ite h.asyncTdExit h.fatalShutdown
  · exact h.fatalShutdown

protected theorem cpuException {v vector : Nat} {p : Tdvps} {e : Option Word} {q : Word} :
    Keeps s (cpuException t v p vector e q) := .ite h.unexpectedExit h.modVp

protected theorem deliverPendingDebug {v : Nat} : Keeps s (deliverPendingDebug t v) := by
  unfold deliverPendingDebug
  split
  · exact h
  · exact .ite h.modVp.cpuException h

protected theorem reattemptDelivery {v : Nat} {p : Tdvps} : Keeps s (reattemptDelivery t v p) :=
  .ite h.modVp.modVp h.modVp.guestExit

protected theorem entryEvents {v : Nat} : Keeps s (entryEvents t v) := by
  unfold entryEvents
  split
  · exact h
  · exact .ite h.reattemptDelivery h.deliverPendingDebug

end

end Keeps

/-! ## Guest operations and events -/

namespace Keeps

section
variable {s t : State} (h : Keeps s t)
include h

protected theorem cpuUd {v : Nat} {p : Tdvps} : Keeps s (cpuUd t v p) := h.cpuException

protected theorem cpuGp {v : Nat} {p : Tdvps} : Keeps s (cpuGp t v p) := h.cpuException

protected theorem emulated {v : Nat} {x : VmExit} {f : Tdvps → Tdvps} : Keeps s (emulated t v x f) :=
  h.serveExit h.modVp

protected theorem machineCheckHit {v : Nat} {x : VmExit} : Keeps s (machineCheckHit t v x) :=
  h.guestExit.broadcastOthers

protected theorem guestMachineCheck {v : Nat} : Keeps s (guestMachineCheck t v) := h.machineCheckHit

/-! ### Memory instructions -/

protected theorem zeroStepExit {v : Nat} {p : Tdvps} {c : Tdcs} {x : VmExit} : Keeps s (zeroStepExit t v p c x) :=
  .ite h.modVp.guestVe (.ite h.modVp.modVp.guestExit h.modVp.guestExit)

protected theorem eptViolation {v : Nat} {p : Tdvps} {c : Tdcs} {x : VmExit} {sup priv : Bool} :
    Keeps s (eptViolation t v p c x sup priv) := .ite h.modVp.cpuException (.ite h.zeroStepExit h.guestExit)

protected theorem accessFault {v : Nat} {c : Tdcs} {p : Tdvps} {locked : Bool} {e : AccessFault} :
    Keeps s (accessFault t v c p locked e) := by
  cases e with
  | illegalGpa => exact h.cpuException
  | violation => exact h.eptViolation
  | misconfig => exact h.guestExit
  | poison => exact h.guestMachineCheck

omit h in
protected theorem writeParts {ms : List PlacedPart} {bs : List Byte} {t : State} (h : Keeps s t) :
    Keeps s (writeParts t ms bs) := by
  induction ms generalizing t bs with
  | nil => exact h
  | cons m ms ih => exact ih h.writeTyped

protected theorem performAccess {p : Tdvps} {a : PlacedAccess} : Keeps s (performAccess t p a).1 := by
  unfold performAccess
  cases a.op with
  | fetch => exact h
  | read => exact h
  | write => exact h.writeParts
  | update => exact h.writeParts

omit h in
protected theorem performAll {p : Tdvps} {as : List PlacedAccess} {t : State} (h : Keeps s t) :
    Keeps s (performAll t p as).1 := by
  induction as generalizing t p with
  | nil => exact h
  | cons a as ih => exact ih h.performAccess

protected theorem tlbFill {v : Tdvps} {gpa level hpa hkid : Nat} {shared uc : Bool} {perms : Word} :
    Keeps s (tlbFill t v gpa level hpa hkid shared uc perms) := h.modLp

omit h in
protected theorem fillParts {p : Tdvps} {ms : List PlacedPart} {t : State} (h : Keeps s t) :
    Keeps s (fillParts t p ms) := by
  induction ms generalizing t with
  | nil => exact h
  | cons m ms ih =>
    unfold fillParts
    split
    · exact ih h.tlbFill
    · exact ih h

omit h in
/-- The translations of every access of an instruction are cached. -/
protected theorem fillAll {p : Tdvps} {as : List PlacedAccess} {t : State} (h : Keeps s t) :
    Keeps s (as.foldl (fun s a => fillParts s p a.parts) t) := by
  induction as generalizing t with
  | nil => exact h
  | cons a as ih => exact ih h.fillParts

protected theorem busLockTrap {v : Nat} {p : Tdvps} : Keeps s (busLockTrap t v p) :=
  .ite h.modVp.guestExit (.ite h.cpuException h)

protected theorem completeAccess {v : Nat} {c : Tdcs} {p : Tdvps} {as : List PlacedAccess} {ws : List NativeWrite}
    {n : Nat} {busLock : Bool} : Keeps s (completeAccess t v c p as ws n busLock) :=
  .ite h.guestMachineCheck (.ite h.performAll.modVp.busLockTrap h.performAll.modVp)

protected theorem guestAccess {v : Nat} {r : Tdr} {c : Tdcs} {p : Tdvps} {as : List MemAccess} {ws : List NativeWrite}
    {n : Nat} {useTlb fillTlb busLock : Bool} : Keeps s (guestAccess t v r c p as ws n useTlb fillTlb busLock) := by
  unfold guestAccess
  split
  · exact h.accessFault
  · exact (Keeps.ite h.fillAll h).completeAccess

/-! ### The other instructions -/

protected theorem loadReg {v : Nat} {r : Reg} {x : Word} {n : Nat} : Keeps s (loadReg t v r x n) := h.modVp

protected theorem opUd {v : Nat} {p : Tdvps} {i : UdInstr} {x : InstrInfo} : Keeps s (opUd t v p i x) := by
  unfold opUd
  split
  · exact h.guestFault
  · exact h.cpuUd

protected theorem opVe {v : Nat} {p : Tdvps} {i : VeInstr} {x : InstrInfo} : Keeps s (opVe t v p i x) :=
  .ite h.cpuGp (.ite h.cpuUd (.ite h.guestVe h.modVp))

protected theorem opWbnoinvd {v : Nat} {p : Tdvps} {x : InstrInfo} : Keeps s (opWbnoinvd t v p x) :=
  .ite h.cpuGp h.guestVe

protected theorem opPconfig {v : Nat} {p : Tdvps} {x : InstrInfo} : Keeps s (opPconfig t v p x) :=
  .ite h.cpuUd (.ite h.cpuGp h.guestVe)

protected theorem opEnqcmds {v : Nat} {p : Tdvps} : Keeps s (opEnqcmds t v p) := .ite h.cpuUd h.cpuGp

protected theorem opRdpmc {v : Nat} {p : Tdvps} {x : InstrInfo} : Keeps s (opRdpmc t v p x) := by
  refine .ite h.cpuGp (.ite h.guestFault ?_)
  split
  · exact h.modVp
  · exact h.cpuGp

protected theorem opSenduipi {v : Nat} {p : Tdvps} {n offset : Nat} {x : Word} :
    Keeps s (opSenduipi t v p n offset x) := .ite h.modVp.guestVe h.cpuUd

protected theorem opMovToCr0 {v : Nat} {p : Tdvps} {x : Word} {i : InstrInfo} : Keeps s (opMovToCr0 t v p x i) := by
  refine .ite h.cpuGp (.ite ?_ (.ite h.cpuGp h.modVp))
  split
  · exact h.guestFault
  · exact h.guestVe
  · exact h.emulated

protected theorem opMovToCr4 {v : Nat} {p : Tdvps} {c : Tdcs} {x : Word} {i : InstrInfo} :
    Keeps s (opMovToCr4 t v p c x i) := by
  refine .ite h.cpuGp (.ite ?_ (.ite h.cpuGp h.modVp))
  split
  · exact h.guestFault
  · exact h.guestVe
  · exact h.emulated

protected theorem opMovFromCr0 {v : Nat} {p : Tdvps} {r : Reg} {n : Nat} : Keeps s (opMovFromCr0 t v p r n) :=
  .ite h.cpuGp h.loadReg

protected theorem opMovFromCr4 {v : Nat} {p : Tdvps} {r : Reg} {n : Nat} : Keeps s (opMovFromCr4 t v p r n) :=
  .ite h.cpuGp h.loadReg

protected theorem opMovToCr3 {v : Nat} {p : Tdvps} {r : Reg} {n : Nat} : Keeps s (opMovToCr3 t v p r n) :=
  .ite h.cpuGp (.ite h.unexpectedExit (.ite h.cpuGp h.modVp))

protected theorem opMovFromCr3 {v : Nat} {p : Tdvps} {r : Reg} {n : Nat} : Keeps s (opMovFromCr3 t v p r n) :=
  .ite h.cpuGp (.ite h.unexpectedExit h.loadReg)

protected theorem opMovToCr8 {v : Nat} {p : Tdvps} {r : Reg} {n : Nat} : Keeps s (opMovToCr8 t v p r n) :=
  .ite h.cpuGp (.ite h.unexpectedExit (.ite h.cpuGp h.modVp))

protected theorem opMovFromCr8 {v : Nat} {p : Tdvps} {r : Reg} {n : Nat} : Keeps s (opMovFromCr8 t v p r n) :=
  .ite h.cpuGp (.ite h.unexpectedExit h.loadReg)

/-- What ends an access to a debug register before it is made. -/
protected theorem drGuard {v : Nat} {p : Tdvps} {d : Nat} {store : Bool} {r : Reg} {n : Nat} {u : State}
    (hu : drGuard t v p d store r n = some u) : Keeps s u := by
  unfold Machine.drGuard at hu
  split at hu
  · cases hu; exact h.unexpectedExit
  split at hu
  · cases hu; exact h.cpuUd
  split at hu
  · cases hu; exact h.cpuGp
  split at hu
  · cases hu; exact h.cpuException
  · cases hu

protected theorem opMovToDr {v : Nat} {p : Tdvps} {d : Nat} {r : Reg} {n : Nat} : Keeps s (opMovToDr t v p d r n) := by
  unfold opMovToDr
  split
  · rename_i hu
    exact h.drGuard hu
  · exact .ite h.cpuGp h.modVp

protected theorem opMovFromDr {v : Nat} {p : Tdvps} {d : Nat} {r : Reg} {n : Nat} :
    Keeps s (opMovFromDr t v p d r n) := by
  unfold opMovFromDr
  split
  · rename_i hu
    exact h.drGuard hu
  · exact h.loadReg

protected theorem opRdmsr {v : Nat} {p : Tdvps} {c : Tdcs} : Keeps s (opRdmsr t v p c) := by
  refine .ite h.cpuGp (.ite (.ite h.cpuGp h.modVp) ?_)
  split
  · exact h.guestFault
  · exact h.guestVe
  · exact h.emulated

protected theorem nativeWrmsr {v : Nat} {p : Tdvps} {idx : Nat} {x : Word} : Keeps s (nativeWrmsr t v p idx x) :=
  .ite h.cpuGp (.ite h.modVp.guestVe h.modVp)

protected theorem opWrmsr {v : Nat} {p : Tdvps} {c : Tdcs} : Keeps s (opWrmsr t v p c) := by
  refine .ite h.cpuGp (.ite h.nativeWrmsr ?_)
  split
  · exact h.guestFault
  · exact h.guestVe
  · exact h.emulated
  · exact h.emulated
  · exact h.emulated

protected theorem opCpuid {v : Nat} {p : Tdvps} {c : Tdcs} : Keeps s (opCpuid t v p c) := by
  refine .ite h.guestVe ?_
  split
  · exact h.emulated
  · exact h.guestVe

protected theorem opXsetbv {v : Nat} {p : Tdvps} : Keeps s (opXsetbv t v p) := by
  refine .ite h.cpuUd (.ite h.cpuGp ?_)
  split
  · exact h.emulated
  · exact h.guestFault

protected theorem opXgetbv {v : Nat} {p : Tdvps} : Keeps s (opXgetbv t v p) :=
  .ite h.cpuUd (.ite h.modVp (.ite h.modVp h.cpuGp))

protected theorem opRdtsc {v : Nat} {p : Tdvps} : Keeps s (opRdtsc t v p) :=
  .ite h.cpuGp (.ite h.unexpectedExit h.modVp)

protected theorem opRdtscp {v : Nat} {p : Tdvps} : Keeps s (opRdtscp t v p) :=
  .ite h.cpuGp (.ite h.unexpectedExit h.modVp)

protected theorem opOther {v : Nat} {p : Tdvps} {c : Tdcs} {ws : List NativeWrite} : Keeps s (opOther t v p c ws) :=
  h.modVp

protected theorem opUmonitor {v : Nat} {p : Tdvps} {c : Tdcs} {ws : List NativeWrite} :
    Keeps s (opUmonitor t v p c ws) := .ite h.cpuUd h.opOther

protected theorem opKeyLocker {v : Nat} {p : Tdvps} {c : Tdcs} {ws : List NativeWrite} :
    Keeps s (opKeyLocker t v p c ws) := .ite h.cpuUd h.opOther

protected theorem opControlled {v : Nat} {r : Tdr} {c : Tdcs} {p : Tdvps} {i : CtlInstr} {x : InstrInfo}
    {as : List MemAccess} {ws : List NativeWrite} {useTlb fillTlb : Bool} :
    Keeps s (opControlled t v r c p i x as ws useTlb fillTlb) :=
  .ite h.cpuUd (.ite h.cpuGp (.ite h.unexpectedExit h.guestAccess))

protected theorem opIret {v : Nat} {p : Tdvps} {c : Tdcs} {ws : List NativeWrite} : Keeps s (opIret t v p c ws) :=
  h.modVp

protected theorem opException {v : Nat} {p : Tdvps} {vector : Nat} {e : Option Word} {q : Word} :
    Keeps s (opException t v p vector e q) := .ite h.guestMachineCheck (.ite h.guestExit h.cpuException)

protected theorem opSoftInt {v : Nat} {p : Tdvps} {i : SoftInt} {n : Nat} : Keeps s (opSoftInt t v p i n) := by
  refine .ite h.cpuUd (.ite h.modVp ?_)
  split
  · exact h.modVp
  · split
    · exact .ite h.unexpectedExit h.modVp
    · exact h

protected theorem guestOp {v : Nat} {r : Tdr} {c : Tdcs} {p : Tdvps} {op : GuestOp} :
    Keeps s (guestOp t v r c p op) := by
  cases op with
  | ud => exact h.opUd
  | ve => exact h.opVe
  | wbnoinvd => exact h.opWbnoinvd
  | pconfig => exact h.opPconfig
  | enqcmd => exact h.cpuGp
  | enqcmds => exact h.opEnqcmds
  | rdpmc => exact h.opRdpmc
  | senduipi => exact h.opSenduipi
  | movToCr0 => exact h.opMovToCr0
  | movToCr4 => exact h.opMovToCr4
  | movFromCr0 => exact h.opMovFromCr0
  | movFromCr4 => exact h.opMovFromCr4
  | movToCr3 => exact h.opMovToCr3
  | movFromCr3 => exact h.opMovFromCr3
  | movToCr8 => exact h.opMovToCr8
  | movFromCr8 => exact h.opMovFromCr8
  | movToDr => exact h.opMovToDr
  | movFromDr => exact h.opMovFromDr
  | rdmsr => exact h.opRdmsr
  | wrmsr => exact h.opWrmsr
  | cpuid => exact h.opCpuid
  | xsetbv => exact h.opXsetbv
  | xgetbv => exact h.opXgetbv
  | rdtsc => exact h.opRdtsc
  | rdtscp => exact h.opRdtscp
  | iret => exact h.opIret
  | mem => exact h.guestAccess
  | exception => exact h.opException
  | softInt => exact h.opSoftInt
  | controlled => exact h.opControlled
  | umonitor => exact h.opUmonitor
  | enclu => exact h.cpuUd
  | keyLocker => exact h.opKeyLocker
  | other => exact h.opOther

/-! ### Events -/

protected theorem injectNmiStep {v : Nat} : Keeps s (injectNmiStep t v) := h.serveExit (.ite h.asyncTdExit h.modVp)

protected theorem processPosted {v : Nat} {p : Tdvps} : Keeps s (processPosted t v p) := h.writeCached.modVp

protected theorem physicalInterrupt {v : Nat} {p : Tdvps} {vector : Nat} {lock : Bool} :
    Keeps s (physicalInterrupt t v p vector lock) := .ite (.ite h.guestMachineCheck h.processPosted) h.guestExit

protected theorem smiExit {v : Nat} {mc lock : Bool} : Keeps s (smiExit t v mc lock) :=
  .ite h.machineCheckHit h.guestExit

protected theorem pasidExit {v : Nat} {p : Tdvps} {b : Bool} : Keeps s (pasidExit t v p b) :=
  .ite h.guestFault (.ite h.guestFault h.guestFault)

protected theorem takeBoundaryExit {v : Nat} {b : BoundaryExit} : Keeps s (takeBoundaryExit t v b) := by
  cases b with
  | monitorTrap => exact h.unexpectedExit
  | nmiWindow => exact h.injectNmiStep
  | interruptWindow => exact h.unexpectedExit

omit h in
protected theorem guestEvent {v : Nat} {p : Tdvps} {lock : Bool} {e : Event} {t : State} (h : Keeps s t) :
    Keeps s (guestEvent t v p lock e) := by
  induction e generalizing t p lock with
  | externalInterrupt => exact h.physicalInterrupt
  | nmi => exact h.guestExit
  | smi => exact h.smiExit
  | ioSmi => exact h.guestExit
  | initSignal => exact h.guestExit
  | tripleFault => exact h.guestExit
  | taskSwitch => exact h.guestExit
  | machineCheck => exact h.machineCheckHit
  | busLock => exact h.modVp.guestExit
  | notification => exact h.guestExit
  | nmiWindow => exact h.injectNmiStep
  | virtualInterrupt => exact h.modVp
  | pasidFailure => exact h.pasidExit
  | entryFailure => exact h.unexpectedExit
  | debugExit => exact h.unexpectedExit
  | unbreakable => exact h.unbreakableShutdown
  | busLocked e ih => exact ih h.modVp

end

end Keeps

/-! ## Host-side functions

The checks of a function change nothing, so each proof passes them (`answers_bind`) and names the operations of the
state that the function answers. -/

section
variable (s : State)

/-! ### TDH.MEM.* -/

theorem memPageAdd_keeps : Answers (memPageAdd s) (Keeps s) := by
  unfold memPageAdd
  repeat refine answers_bind fun _ _ => ?_
  exact answers_pure (Keeps.refl s).writeDirect.setSept.modTdcs.modTdr.assignPage.hostReturn

theorem memPageAug_keeps : Answers (memPageAug s) (Keeps s) := by
  unfold memPageAug
  repeat refine answers_bind fun _ _ => ?_
  exact answers_pure (Keeps.refl s).setSept.modTdr.assignPage.hostReturn

theorem memPageDemote_keeps : Answers (memPageDemote s) (Keeps s) := by
  unfold memPageDemote
  repeat refine answers_bind fun _ _ => ?_
  exact answers_pure
    (Keeps.refl s).freePage.assignPages.zeroDirect.fillSeptPage.setSept.modTdr.assignPage.hostReturn

theorem memPagePromote_keeps : Answers (memPagePromote s) (Keeps s) := by
  unfold memPagePromote
  repeat refine answers_bind fun _ _ => ?_
  exact answers_pure (Keeps.refl s).freePages.assignPage.clearSeptPage.setSept.modTdr.freePage.hostReturn

theorem copyPage_keeps (hkid old new : Nat) (copied : Bool) : Answers (copyPage s hkid old new copied) (Keeps s) :=
  answers_ite (fun _ => answers_bind fun _ _ => answers_pure (Keeps.refl s).writeDirect)
    fun _ => answers_pure (Keeps.refl s)

theorem memPageRelocate_keeps : Answers (memPageRelocate s) (Keeps s) := by
  unfold memPageRelocate
  iterate 7 refine answers_bind fun _ _ => ?_
  refine answers_bind fun s1 h1 => ?_
  have copied : Keeps s s1 := copyPage_keeps _ _ _ _ _ _ h1
  exact answers_pure copied.freePage.assignPage.setSept.hostReturn

theorem memPageRemove_keeps : Answers (memPageRemove s) (Keeps s) := by
  unfold memPageRemove
  repeat refine answers_bind fun _ _ => ?_
  exact answers_pure (Keeps.refl s).modTdr.freePage.setSept.hostReturn

theorem memRangeBlock_keeps : Answers (memRangeBlock s) (Keeps s) := by
  unfold memRangeBlock
  repeat refine answers_bind fun _ _ => ?_
  exact answers_pure (Keeps.refl s).setSept.setBepoch.hostReturn

theorem memRangeUnblock_keeps : Answers (memRangeUnblock s) (Keeps s) := by
  unfold memRangeUnblock
  repeat refine answers_bind fun _ _ => ?_
  exact answers_pure (Keeps.refl s).setSept.hostReturn

theorem memRd_keeps : Answers (memRd s) (Keeps s) :=
  answers_bind fun _ _ => answers_pure (Keeps.refl s).hostReturn

variable {s} in
protected theorem Keeps.memWrStore {t : State} (h : Keeps s t) {r : MemWrRun} : Keeps s (memWrStore t r) :=
  h.writeCached.hostReturn

theorem memWr_keeps : Answers (memWr s) (Keeps s) :=
  answers_bind fun _ _ => answers_pure (.ite (Keeps.refl s).setLocks.modLp (Keeps.refl s).memWrStore)

theorem memWrResume_keeps (r : MemWrRun) : Keeps s (memWrResume s r) := (Keeps.refl s).setLocks.modLp.memWrStore

theorem memSeptAdd_keeps : Answers (memSeptAdd s) (Keeps s) := by
  unfold memSeptAdd
  repeat refine answers_bind fun _ _ => ?_
  exact answers_pure (Keeps.refl s).zeroDirect.clearSeptPage.setSept.modTdr.assignPage.hostReturn

theorem memSeptRd_keeps : Answers (memSeptRd s) (Keeps s) := by
  unfold memSeptRd
  repeat refine answers_bind fun _ _ => ?_
  exact answers_pure (Keeps.refl s).hostReturn

theorem memSeptRemove_keeps : Answers (memSeptRemove s) (Keeps s) := by
  unfold memSeptRemove
  repeat refine answers_bind fun _ _ => ?_
  exact answers_pure (Keeps.refl s).modTdr.freePage.setSept.hostReturn

theorem memTrack_keeps : Answers (memTrack s) (Keeps s) := by
  unfold memTrack
  repeat refine answers_bind fun _ _ => ?_
  exact answers_pure (Keeps.refl s).modTdcs.hostReturn

/-! ### TDH.PHYMEM.* -/

variable {s} in
/-- TDH.PHYMEM.CACHE.WB clears write-back bits; the states of the key ownership table stay (R480). -/
protected theorem Keeps.clearScope {t : State} (h : Keeps s t) {scope : Nat} {ks : List Nat} :
    Keeps s (clearScope t scope ks) := by
  induction ks generalizing t with
  | nil => exact h
  | cons k ks ih => exact ih (h.setKot fun hs a x hx hold e => e ▸ (h.hkids hs).held a x hx hold)

theorem cacheWbRun_keeps (scope : Nat) (set : List Nat) : Keeps s (cacheWbRun s scope set) := by
  unfold cacheWbRun
  split
  · exact (Keeps.refl s).cleanEntries.setWbt.hostReturn
  · exact (Keeps.refl s).writeBackScope.setWbt.clearScope.hostReturn

theorem phymemCacheWb_keeps : Answers (phymemCacheWb s) (Keeps s) := by
  unfold phymemCacheWb
  iterate 3 refine answers_bind fun _ _ => ?_
  refine answers_ite (fun _ => answers_ite (fun _ => ?_) fun _ => ?_) fun _ => answers_bind fun _ _ => ?_
  · exact answers_pure (Keeps.refl s).setWbt.hostReturn
  · exact answers_pure (cacheWbRun_keeps s _ _)
  · exact answers_pure (cacheWbRun_keeps s _ _)

theorem phymemPageRdmd_keeps : Answers (phymemPageRdmd s) (Keeps s) := by
  unfold phymemPageRdmd
  repeat refine answers_bind fun _ _ => ?_
  exact answers_pure (Keeps.refl s).hostReturn

theorem reclaimChild_keeps (l : Locks) (a level : Nat) (e : PamtEntry) :
    Answers (reclaimChild s l a level e) (Keeps s) := by
  unfold reclaimChild
  repeat refine answers_bind fun _ _ => ?_
  exact answers_pure (Keeps.refl s).modTdr.forget.freePage.hostReturn

theorem reclaimTdr_keeps (a : Nat) (e : PamtEntry) : Answers (reclaimTdr s a e) (Keeps s) := by
  unfold reclaimTdr
  repeat refine answers_bind fun _ _ => ?_
  exact answers_pure (Keeps.refl s).forget.freePage.hostReturn

theorem phymemPageReclaim_keeps : Answers (phymemPageReclaim s) (Keeps s) := by
  unfold phymemPageReclaim
  repeat refine answers_bind fun _ _ => ?_
  exact answers_ite (fun _ => reclaimTdr_keeps s _ _) fun _ => reclaimChild_keeps s _ _ _ _

theorem phymemPageWbinvd_keeps : Answers (phymemPageWbinvd s) (Keeps s) := by
  unfold phymemPageWbinvd
  repeat refine answers_bind fun _ _ => ?_
  exact answers_pure (Keeps.refl s).flushPage.hostReturn

/-! ### TDH.MNG.* and TDH.MR.*, but those that move an HKID -/

theorem mngAddcx_keeps : Answers (mngAddcx s) (Keeps s) := by
  unfold mngAddcx
  repeat refine answers_bind fun _ _ => ?_
  exact answers_pure (Keeps.refl s).zeroDirect.modTdr.assignPage.hostReturn

variable {s} in
protected theorem Keeps.setTdcs {t : State} (h : Keeps s t) {a : Nat} {c : Tdcs} :
    Keeps s { t with tdcss := tblSet t.tdcss a c } := h.agree {}

theorem mngInit_keeps : Answers (mngInit s) (Keeps s) := by
  unfold mngInit
  repeat refine answers_bind fun _ _ => ?_
  exact answers_pure (Keeps.refl s).clearSeptPage.modTdr.setTdcs.hostReturn

theorem mngKeyReclaimid_keeps : Answers (mngKeyReclaimid s) (Keeps s) := answers_pure (Keeps.refl s).hostReturn

theorem mngRd_keeps : Answers (mngRd s) (Keeps s) := by
  unfold mngRd
  repeat refine answers_bind fun _ _ => ?_
  exact answers_pure (Keeps.refl s).hostReturn

theorem mngWr_keeps : Answers (mngWr s) (Keeps s) := by
  unfold mngWr
  repeat refine answers_bind fun _ _ => ?_
  exact answers_pure (Keeps.refl s).modTdcs.hostReturn

theorem mrExtend_keeps : Answers (mrExtend s) (Keeps s) := by
  unfold mrExtend
  repeat refine answers_bind fun _ _ => ?_
  exact answers_pure (Keeps.refl s).modTdcs.hostReturn

theorem mrFinalize_keeps : Answers (mrFinalize s) (Keeps s) := by
  unfold mrFinalize
  repeat refine answers_bind fun _ _ => ?_
  exact answers_pure (Keeps.refl s).modTdcs.hostReturn

/-! ### TDH.VP.* -/

theorem vpAddcx_keeps : Answers (vpAddcx s) (Keeps s) := by
  unfold vpAddcx
  repeat refine answers_bind fun _ _ => ?_
  exact answers_pure (Keeps.refl s).zeroDirect.modVp.modTdr.assignPage.hostReturn

variable {s} in
protected theorem Keeps.setVp {t : State} (h : Keeps s t) {v : Nat} {p : Tdvps} :
    Keeps s { t with vps := tblSet t.vps v p } := h.agree {}

theorem vpCreate_keeps : Answers (vpCreate s) (Keeps s) := by
  unfold vpCreate
  repeat refine answers_bind fun _ _ => ?_
  exact answers_pure (Keeps.refl s).zeroDirect.modTdr.setVp.assignPage.hostReturn

theorem associate_keeps (a td : Nat) (v : Tdvps) (hkid : Nat) : Answers (associate s a td v hkid) (Keeps s) := by
  unfold associate
  repeat refine answers_bind fun _ _ => ?_
  exact answers_pure (Keeps.refl s).modVp.modTdcs

variable {s} in
protected theorem Keeps.enterGuest {t : State} (h : Keeps s t) {v : Nat} {c : Tdcs} {p : Tdvps} :
    Keeps s (enterGuest t v c p) := by
  unfold enterGuest
  split
  · exact h.unexpectedExit
  · exact h.entryEvents

theorem vpEnter_keeps : Answers (vpEnter s) (Keeps s) := by
  unfold vpEnter
  iterate 10 refine answers_bind fun _ _ => ?_
  refine answers_bind fun s1 h1 => ?_
  have associated : Keeps s s1 := associate_keeps _ _ _ _ _ _ h1
  repeat refine answers_bind fun _ _ => ?_
  exact answers_pure associated.modVp.modTdcs.setLocks.modLp.enterGuest

theorem entryAnswer_keeps {r : Fn State} (hr : Answers r (Keeps s)) : Answers (entryAnswer s r) (Keeps s) := by
  unfold entryAnswer
  split
  · exact answers_ok (Keeps.refl s).modLp.hostReturn
  · exact hr

theorem vpFlush_keeps : Answers (vpFlush s) (Keeps s) := by
  unfold vpFlush
  repeat refine answers_bind fun _ _ => ?_
  exact answers_pure (Keeps.refl s).modLp.modVp.modTdcs.hostReturn

theorem vpInit_keeps : Answers (vpInit s) (Keeps s) := by
  unfold vpInit
  repeat refine answers_bind fun _ _ => ?_
  exact answers_pure (Keeps.refl s).modVp.modTdcs.hostReturn

theorem vpRd_keeps : Answers (vpRd s) (Keeps s) := by
  unfold vpRd
  iterate 3 refine answers_bind fun _ _ => ?_
  refine answers_bind fun s1 h1 => ?_
  have associated : Keeps s s1 := associate_keeps _ _ _ _ _ _ h1
  exact answers_pure associated.hostReturn

theorem vpWr_keeps : Answers (vpWr s) (Keeps s) := by
  unfold vpWr
  iterate 3 refine answers_bind fun _ _ => ?_
  refine answers_bind fun s1 h1 => ?_
  have associated : Keeps s s1 := associate_keeps _ _ _ _ _ _ h1
  repeat refine answers_bind fun _ _ => ?_
  exact answers_pure associated.modVp.hostReturn

/-! ### TDH.SYS.*, but those that change the module's state -/

theorem sysInfo_keeps : Answers (sysInfo s) (Keeps s) := by
  unfold sysInfo
  repeat refine answers_bind fun _ _ => ?_
  exact answers_pure (Keeps.refl s).writeShared.writeShared.hostReturn

theorem sysLpInit_keeps : Answers (sysLpInit s) (Keeps s) := by
  unfold sysLpInit
  iterate 4 refine answers_bind fun _ _ => ?_
  dsimp only
  split
  · exact answers_pure (Keeps.refl s).modLp.modLp.hostReturn
  · exact answers_pure ((Keeps.refl s).modLp.finishHost (answers_withOuts (answers_error _ _)))

variable {s} in
protected theorem Keeps.zeroPamtLines {t : State} (h : Keeps s t) {r : Tdmr} {base level lo hi : Nat} :
    Keeps s (zeroPamtLines t r base level lo hi) := .ite h.zeroDirect h

variable {s} in
protected theorem Keeps.setPamtTables {t : State} (h : Keeps s t) {k m g : Table PamtEntry} :
    Keeps s { t with pamt4k := k, pamt2m := m, pamt1g := g } := h.agree {}

variable {s} in
protected theorem Keeps.initPamt {t : State} (h : Keeps s t) {r : Tdmr} {lo hi : Nat} :
    Keeps s (initPamt t r lo hi) := h.zeroPamtLines.zeroPamtLines.zeroPamtLines.setPamtTables

variable {s} in
protected theorem Keeps.setTdmrs {t : State} (h : Keeps s t) {ts : List Tdmr} : Keeps s { t with tdmrs := ts } :=
  h.agree {}

theorem sysTdmrInit_keeps : Answers (sysTdmrInit s) (Keeps s) := by
  unfold sysTdmrInit
  repeat refine answers_bind fun _ _ => ?_
  exact answers_pure (Keeps.refl s).initPamt.setTdmrs.hostReturn

end

section
variable (s : State)

/-! ### The functions that move an HKID -/

/-- A TDR that a function has reached is the stored one. -/
theorem getTdr_answers (a : Nat) : Answers (getTdr s a) fun t => tblGet s.tdrs a = some t :=
  answers_bind fun _ _ _ ht => getOr_eq_ok.1 ht

theorem typedTdr_answers (a id : Nat) : Answers (typedTdr s a id) fun t => tblGet s.tdrs a = some t :=
  answers_bind fun _ _ => getTdr_answers s a

/-- A key that is configured changes the key table, and the fresh key's number at most. -/
theorem configureKey_answers (hkid : Nat) (done : Word) (owner : KeyOwner) :
    Answers (configureKey s hkid done owner) fun t => ∃ k n, t = { s with ket := k, nextKey := n } := by
  unfold configureKey
  iterate 2 refine answers_bind fun _ _ => ?_
  split
  · exact answers_pure ⟨_, _, rfl⟩
  · exact answers_pure ⟨_, _, rfl⟩

/-- R451: the HKID was free, so no TD held it. -/
theorem mngCreate_keeps (hr : s.sysState = .sysReady) : Answers (mngCreate s) (Keeps s) := by
  unfold mngCreate
  refine answers_bind fun ⟨l, td⟩ _ => ?_
  iterate 4 refine answers_bind fun _ _ => ?_
  refine answers_bind fun _ hreq => ?_
  generalize bitsOf (s.hreg .rdx) 15 0 = k at hreq ⊢
  have free : (kotAt s k).state = .free := by simpa using req_eq_ok.1 hreq
  have unheld : HkidsDistinct s → ∀ b x, tblGet s.tdrs b = some x → HoldsHkid x → x.hkid ≠ k := by
    rintro hs b x hx hold rfl
    have := hs.held b x hx hold
    simp [free] at this
  have assigned : Keeps s ((zeroDirect s s.globalHkid td 4096).setKot k { kotAt s k with state := .assigned }) :=
    (Keeps.refl s).zeroDirect.setKot fun _ _ _ _ _ _ => .inl rfl
  have created := assigned.newTdr (a := td) (y := Tdr.created k) hr (by simp [HkidTaken, kotAt_setKot, Tdr.created]) unheld
  exact answers_pure (Keeps.hostReturn (Keeps.assignPage created))

/-- R453: a TD whose keys are being configured holds its HKID already. -/
theorem mngKeyConfig_keeps : Answers (mngKeyConfig s) (Keeps s) := by
  unfold mngKeyConfig
  refine answers_bind fun ⟨l, td⟩ _ => answers_bind fun t ht => answers_bind fun _ _ => answers_bind fun _ hlife => ?_
  refine answers_bind fun _ _ => answers_bind fun s1 h1 => ?_
  have stored : tblGet s.tdrs td = some t := typedTdr_answers s _ _ t ht
  have life : t.lifecycle = .hkidAssigned := by simpa using req_eq_ok.1 hlife
  obtain ⟨k, n, rfl⟩ := configureKey_answers s _ _ _ s1 h1
  have keyed : Keeps s { s with ket := k, nextKey := n } := (Keeps.refl s).agree {}
  refine answers_pure (Keeps.hostReturn (keyed.modTdr fun x hx _ => ?_))
  obtain rfl : t = x := Option.some.inj (stored.symm.trans hx)
  exact ⟨by simp [HoldsHkid, life], rfl⟩

/-- R454: the TD gives its HKID back, and no other TD holds it. -/
theorem mngKeyFreeid_keeps : Answers (mngKeyFreeid s) (Keeps s) := by
  unfold mngKeyFreeid
  refine answers_bind fun ⟨l, td⟩ _ => answers_bind fun _ _ => answers_bind fun t ht => answers_bind fun _ hlife => ?_
  iterate 2 refine answers_bind fun _ _ => ?_
  have stored : tblGet s.tdrs td = some t := typedTdr_answers s _ _ t ht
  have life : t.lifecycle = .blocked := by simpa using req_eq_ok.1 hlife
  have tornDown : Keeps s (s.modTdr td fun t => { t with lifecycle := .teardown }) :=
    (Keeps.refl s).modTdr fun _ _ hold => absurd rfl hold
  have freed := tornDown.setKot (k := t.hkid) (e := { kotAt s t.hkid with state := .free }) fun hs a x hx hold e => by
    rw [State.modTdr, tblGet_tblMod] at hx
    split at hx
    · obtain ⟨y, _, rfl⟩ := Option.map_eq_some_iff.1 hx
      exact absurd rfl hold
    · rename_i hne
      exact absurd (hs.distinct td a t x stored hx (by simp [HoldsHkid, life]) hold e.symm) hne
  exact answers_pure (Keeps.hostReturn freed)

/-- R457: the HKID of the TD is flushed, and still the TD's. -/
theorem mngVpflushdone_keeps : Answers (mngVpflushdone s) (Keeps s) := by
  unfold mngVpflushdone
  refine answers_bind fun ⟨l, td⟩ _ => answers_bind fun _ _ => answers_bind fun t ht => answers_bind fun _ hlife => ?_
  iterate 2 refine answers_bind fun _ _ => ?_
  have stored : tblGet s.tdrs td = some t := typedTdr_answers s _ _ t ht
  have life : HoldsHkid t := by
    intro e
    have := req_eq_ok.1 hlife
    simp [e] at this
  have flushed : Keeps s (s.setKot t.hkid ⟨.flushed, allScopes s.plat⟩) :=
    (Keeps.refl s).setKot fun _ _ _ _ _ _ => .inr rfl
  refine answers_pure (Keeps.hostReturn (flushed.modTdr fun x hx _ => ?_))
  obtain rfl : t = x := Option.some.inj (stored.symm.trans hx)
  exact ⟨life, rfl⟩

/-! ### The functions that change the module's state -/

variable {s} in
/-- Before the module is ready there is no TD, so whatever becomes of the key ownership table and of the module's state
keeps one TD per HKID. -/
theorem keeps_beforeReady {t : State} (h1 : s.sysState ≠ .sysReady) (h2 : s.sysState ≠ .sysShutdown)
    (tdrs : t.tdrs = s.tdrs := by rfl) (mem : t.mem = s.mem := by rfl) (plat : t.plat = s.plat := by rfl)
    (lps : t.lps.length = s.lps.length := by rfl) (tsc : t.tsc = s.tsc := by rfl) : Keeps s t where
  mem := by rw [mem]; exact id
  lps := by rw [lps, plat]; exact id
  hkids hs := hkidsDistinct_of_tdrs_nil (tdrs.trans (hs.noTdBeforeReady h1 h2))
  tsc := by rw [tsc]; exact BitVec.le_refl _

theorem sysConfig_keeps : Answers (sysConfig s) (Keeps s) := by
  unfold sysConfig
  iterate 2 refine answers_bind fun _ _ => ?_
  refine answers_bind fun _ hreq => ?_
  have pending : s.sysState = .sysinitDone := by simpa using req_eq_ok.1 hreq
  repeat refine answers_bind fun _ _ => ?_
  exact answers_pure (Keeps.hostReturn (keeps_beforeReady (by simp [pending]) (by simp [pending])))

theorem sysInit_keeps : Answers (sysInit s) (Keeps s) := by
  unfold sysInit
  iterate 2 refine answers_bind fun _ _ => ?_
  refine answers_bind fun _ hreq => ?_
  have pending : s.sysState = .sysinitPending := by simpa using req_eq_ok.1 hreq
  repeat refine answers_bind fun _ _ => ?_
  exact answers_pure (Keeps.hostReturn (keeps_beforeReady (by simp [pending]) (by simp [pending]) (lps := by simp)))

theorem sysKeyConfig_keeps : Answers (sysKeyConfig s) (Keeps s) := by
  unfold sysKeyConfig
  iterate 2 refine answers_bind fun _ _ => ?_
  refine answers_bind fun _ hreq => answers_bind fun _ _ => answers_bind fun s1 h1 => ?_
  have pending : s.sysState = .sysconfigDone := by simpa using req_eq_ok.1 hreq
  obtain ⟨k, n, rfl⟩ := configureKey_answers s _ _ _ s1 h1
  exact answers_pure (Keeps.hostReturn (keeps_beforeReady (by simp [pending]) (by simp [pending])))

variable {s} in
/-- A module that is shut down may still have TDs. -/
protected theorem Keeps.setShutdown {t : State} (h : Keeps s t) : Keeps s { t with sysState := .sysShutdown } :=
  ⟨h.mem, h.lps, fun hs => ⟨fun _ h2 => absurd rfl h2, (h.hkids hs).held, (h.hkids hs).distinct⟩, h.tsc⟩

theorem sysLpShutdown_keeps : Answers (sysLpShutdown s) (Keeps s) :=
  answers_bind fun _ _ => answers_pure (Keeps.refl s).setShutdown.modLp.hostReturn

end

section
variable (s : State)

/-- Every host-side function keeps the invariant's clauses; only TDH.MNG.CREATE needs that the module is ready. -/
theorem hostBody_keeps (i : Instr) (hr : sysLeaf i = true ∨ s.sysState = .sysReady) :
    Answers (hostBody i s) (Keeps s) := by
  cases i with
  | tdhVpEnter => exact entryAnswer_keeps s (vpEnter_keeps s)
  | tdhMngAddcx => exact mngAddcx_keeps s
  | tdhMemPageAdd => exact answers_withOuts (memPageAdd_keeps s)
  | tdhMemSeptAdd => exact answers_withOuts (memSeptAdd_keeps s)
  | tdhVpAddcx => exact vpAddcx_keeps s
  | tdhMemPageRelocate => exact answers_withOuts (memPageRelocate_keeps s)
  | tdhMemPageAug => exact answers_withOuts (memPageAug_keeps s)
  | tdhMemRangeBlock => exact answers_withOuts (memRangeBlock_keeps s)
  | tdhMngKeyConfig => exact mngKeyConfig_keeps s
  | tdhMngCreate => exact mngCreate_keeps s (hr.resolve_left nofun)
  | tdhVpCreate => exact vpCreate_keeps s
  | tdhMngRd => exact answers_withOuts (mngRd_keeps s)
  | tdhMemRd => exact answers_withOuts (memRd_keeps s)
  | tdhMngWr => exact answers_withOuts (mngWr_keeps s)
  | tdhMemWr => exact answers_withOuts (memWr_keeps s)
  | tdhMemPageDemote => exact answers_withOuts (memPageDemote_keeps s)
  | tdhMrExtend => exact answers_withOuts (mrExtend_keeps s)
  | tdhMrFinalize => exact mrFinalize_keeps s
  | tdhVpFlush => exact vpFlush_keeps s
  | tdhMngVpflushdone => exact mngVpflushdone_keeps s
  | tdhMngKeyFreeid => exact mngKeyFreeid_keeps s
  | tdhMngInit => exact answers_withOuts (mngInit_keeps s)
  | tdhVpInit => exact vpInit_keeps s
  | tdhMemPagePromote => exact answers_withOuts (memPagePromote_keeps s)
  | tdhPhymemPageRdmd => exact answers_withOuts (phymemPageRdmd_keeps s)
  | tdhMemSeptRd => exact answers_withOuts (memSeptRd_keeps s)
  | tdhVpRd => exact answers_withOuts (vpRd_keeps s)
  | tdhMngKeyReclaimid => exact mngKeyReclaimid_keeps s
  | tdhPhymemPageReclaim => exact answers_withOuts (phymemPageReclaim_keeps s)
  | tdhMemPageRemove => exact answers_withOuts (memPageRemove_keeps s)
  | tdhMemSeptRemove => exact answers_withOuts (memSeptRemove_keeps s)
  | tdhSysKeyConfig => exact sysKeyConfig_keeps s
  | tdhSysInfo => exact answers_withOuts (sysInfo_keeps s)
  | tdhSysInit => exact answers_withOuts (sysInit_keeps s)
  | tdhSysLpInit => exact answers_withOuts (sysLpInit_keeps s)
  | tdhSysTdmrInit => exact answers_withOuts (sysTdmrInit_keeps s)
  | tdhMemTrack => exact memTrack_keeps s
  | tdhMemRangeUnblock => exact answers_withOuts (memRangeUnblock_keeps s)
  | tdhPhymemCacheWb => exact phymemCacheWb_keeps s
  | tdhPhymemPageWbinvd => exact phymemPageWbinvd_keeps s
  | tdhVpWr => exact answers_withOuts (vpWr_keeps s)
  | tdhSysLpShutdown => exact sysLpShutdown_keeps s
  | tdhSysConfig => exact sysConfig_keeps s
  | tdgVpVmcall | tdgVpInfo | tdgMrRtmrExtend | tdgVpVeinfoGet | tdgMrReport | tdgVpCpuidveSet | tdgMemPageAccept
  | tdgVmRd | tdgVmWr => exact answers_ok (Keeps.refl s)

variable {s} in
theorem hostCall_keeps {t : State} {sys : Bool} {body : State → Fn State}
    (hb : sys = true ∨ s.sysState = .sysReady → Answers (body s) (Keeps s)) (h : hostCall sys body s = .next t) :
    Keeps s t := by
  rcases hostCall_next h with ⟨v, _, rfl⟩ | ⟨_, rfl⟩ | ⟨_, rfl⟩ | ⟨st, _, rfl⟩ | ⟨_, hr, rfl⟩
  · exact (Keeps.refl s).guestFault
  · exact (Keeps.refl s).vmfailInvalid
  · exact (Keeps.refl s).blockedReturn
  · exact (Keeps.refl s).hostReturn
  · exact (Keeps.refl s).finishHost (hb hr)

/-! ## Guest-side functions -/

end

section
variable {s t : State} (h : Keeps s t)
include h

protected theorem Keeps.guestReturn {v a d : Nat} {outs : List (Reg × Word)} : Keeps s (guestReturn t v a d outs) :=
  h.modVp

protected theorem Keeps.finishGuest {v : Nat} {r : GFn State} (hr : Answers r (Keeps s)) :
    Keeps s (finishGuest t v r) := by
  unfold finishGuest
  split
  · exact hr _ rfl
  · exact h.guestReturn
  · exact h.guestVe
  · exact h.guestExit
  · exact h.unbreakableShutdown
  · exact h.fatalShutdown

protected theorem Keeps.guestTdcall {v : Nat} {body : State → Nat → GFn State}
    (hb : ∀ u, Answers (body u v) (Keeps u)) : Keeps s (guestTdcall t v body) := by
  have entered : Keeps s (t.tdcallEntered v) := h.modVp
  unfold guestTdcall
  split
  · exact h.fatalShutdown
  · exact h.serveExit (.ite h.guestFault (entered.finishGuest (answers_mono (hb _) fun _ => entered.trans)))

protected theorem Keeps.zeroChunks {hkid n : Nat} {r : AcceptRun} : Keeps s (zeroChunks t hkid r n) :=
  .ite h.zeroDirect h

protected theorem Keeps.acceptPause {v : Nat} {l : Locks} {r : AcceptRun} : Keeps s (acceptPause t v l r) :=
  h.setLocks.modVp

protected theorem Keeps.acceptAbort {v : Nat} {l : Locks} : Keeps s (acceptAbort t v l) := h.setLocks.modVp

protected theorem Keeps.acceptFinish {v : Nat} {l : Locks} {r : AcceptRun} : Keeps s (acceptFinish t v l r) :=
  .ite h.setLocks.modVp.setSept.guestReturn h.setLocks.modVp.guestExit

protected theorem Keeps.acceptRun {v hkid : Nat} {base held : Locks} {r : AcceptRun} {fresh : Bool} :
    Keeps s (acceptRun t v hkid base held r fresh) := by
  unfold acceptRun
  split
  · exact .ite h.zeroChunks.acceptPause h.zeroChunks.acceptAbort
  · exact h.zeroChunks.acceptPause
  · exact h.zeroChunks.acceptAbort
  · exact .ite h.zeroChunks.unbreakableShutdown h.zeroChunks.acceptFinish

end

section
variable (s : State) (v : Nat)

theorem acceptStart_keeps (t : Tdr) (c : Tdcs) (p : Tdvps) : Answers (acceptStart s v t c p) (Keeps s) := by
  unfold acceptStart
  repeat refine answers_bind fun _ _ => ?_
  exact answers_pure (Keeps.refl s).acceptRun

theorem memPageAccept_keeps : Answers (memPageAccept s v) (Keeps s) := by
  unfold memPageAccept
  refine answers_bind fun ⟨_, t, c, p⟩ _ => ?_
  dsimp only
  split
  · exact answers_pure (Keeps.refl s).acceptRun
  · exact acceptStart_keeps s v t c p

theorem mrReport_keeps : Answers (mrReport s v) (Keeps s) := by
  unfold mrReport
  repeat refine answers_bind fun _ _ => ?_
  exact answers_pure (Keeps.refl s).guestWrite.guestReturn

theorem mrRtmrExtend_keeps : Answers (mrRtmrExtend s v) (Keeps s) := by
  unfold mrRtmrExtend
  repeat refine answers_bind fun _ _ => ?_
  exact answers_pure (Keeps.refl s).modTdcs.guestReturn

theorem vmRd_keeps : Answers (vmRd s v) (Keeps s) := by
  unfold vmRd
  repeat refine answers_bind fun _ _ => ?_
  exact answers_pure (Keeps.refl s).guestReturn

theorem vmWrAlone_keeps : Answers (vmWrAlone s v) (Keeps s) := by
  unfold vmWrAlone
  repeat refine answers_bind fun _ _ => ?_
  exact answers_pure (Keeps.refl s).modTdcs.guestReturn

variable {s} in
protected theorem Keeps.setRaceLost {t : State} (h : Keeps s t) {b : Bool} : Keeps s { t with raceLost := b } :=
  h.agree {}

theorem vmWr_keeps : Answers (vmWr s v) (Keeps s) :=
  answers_bind fun r hr =>
    answers_ite (fun _ => answers_pure (Keeps.refl s).setRaceLost.guestReturn)
      fun _ => answers_pure (vmWrAlone_keeps s v r hr)

theorem vpCpuidveSet_keeps : Answers (vpCpuidveSet s v) (Keeps s) := by
  unfold vpCpuidveSet
  repeat refine answers_bind fun _ _ => ?_
  exact answers_pure (Keeps.refl s).modVp.guestReturn

theorem vpInfo_keeps : Answers (vpInfo s v) (Keeps s) :=
  answers_bind fun _ _ => answers_pure (Keeps.refl s).guestReturn

theorem vpVeinfoGet_keeps : Answers (vpVeinfoGet s v) (Keeps s) := by
  unfold vpVeinfoGet
  repeat refine answers_bind fun _ _ => ?_
  exact answers_pure (Keeps.refl s).modVp.guestReturn

theorem vpVmcall_keeps : Answers (vpVmcall s v) (Keeps s) := by
  unfold vpVmcall
  repeat refine answers_bind fun _ _ => ?_
  exact answers_pure (Keeps.refl s).modVp.modTdcs.setLocks.modLp

/-- Every guest-side function keeps the invariant's clauses. -/
theorem guestBody_keeps {i : Instr} (hi : i.side = .tdcall) : Answers (guestBody i s v) (Keeps s) := by
  cases i with
  | tdgVpVmcall => exact vpVmcall_keeps s v
  | tdgVpInfo => exact vpInfo_keeps s v
  | tdgMrRtmrExtend => exact mrRtmrExtend_keeps s v
  | tdgVpVeinfoGet => exact vpVeinfoGet_keeps s v
  | tdgMrReport => exact mrReport_keeps s v
  | tdgVpCpuidveSet => exact vpCpuidveSet_keeps s v
  | tdgMemPageAccept => exact memPageAccept_keeps s v
  | tdgVmRd => exact answers_gWithOuts (vmRd_keeps s v)
  | tdgVmWr => exact answers_gWithOuts (vmWr_keeps s v)
  | _ => cases hi

end

section
variable {s t : State}

/-- A step that is stopped before it begins has no next state. -/
theorem lpStop_not_next {o : Outcome} (h : lpStop s = some o) : o ≠ .next t := by
  rintro rfl
  unfold lpStop at h
  split at h
  · cases h
  split at h <;> cases h

theorem guestCall_keeps {body : State → Nat → GFn State} (hb : ∀ u v, Answers (body u v) (Keeps u))
    (h : guestCall body s = .next t) : Keeps s t := by
  unfold guestCall at h
  split at h
  · rename_i ho
    exact absurd h (lpStop_not_next ho)
  · cases h
  · cases h
    exact (Keeps.refl s).guestTdcall fun u => hb u _

/-! ## Calls -/

/-- A TDH.MEM.WR that goes on from between its steps 8 and 9. -/
theorem execTdhMemWr_resumed_keeps {r : MemWrRun} (hr : s.lp.memWr = some r) (h : exec .tdhMemWr s = .next t) :
    Keeps s t := by
  simp only [exec, execTdhMemWr, hr] at h
  cases hl : lpStop s with
  | some o =>
    rw [hl] at h
    exact absurd h (lpStop_not_next hl)
  | none =>
    rw [hl] at h
    cases h
    exact memWrResume_keeps s r

theorem exec_keeps {i : Instr} (h : exec i s = .next t) : Keeps s t := by
  cases hi : i.side with
  | tdcall =>
    rw [exec_guest i hi] at h
    exact guestCall_keeps (fun u v => guestBody_keeps u v hi) h
  | seamcall =>
    by_cases hw : i = .tdhMemWr → s.lp.memWr = none
    · rw [exec_host i hi s hw] at h
      exact hostCall_keeps (hostBody_keeps s i) h
    · obtain ⟨rfl, hm⟩ := Classical.not_imp.1 hw
      obtain ⟨r, hr⟩ := Option.ne_none_iff_exists'.1 hm
      exact execTdhMemWr_resumed_keeps hr h

theorem unsupportedCall_keeps (h : unsupportedCall s = .next t) : Keeps s t := by
  unfold unsupportedCall at h
  split at h
  · exact hostCall_keeps (fun _ => answers_error _ _) h
  · exact guestCall_keeps (fun _ _ => answers_error _ _) h

theorem callStep_keeps (h : callStep s = .next t) : Keeps s t := by
  unfold callStep at h
  split at h
  · split at h
    · rename_i ho
      exact absurd h (lpStop_not_next ho)
    · cases h
      exact (Keeps.refl s).takeBoundaryExit
    · cases h
  · split at h
    · exact exec_keeps h
    · exact unsupportedCall_keeps h

theorem guestStep_keeps {op : GuestOp} (h : guestStep s op = .next t) : Keeps s t := by
  unfold guestStep at h
  split at h
  · rename_i ho
    exact absurd h (lpStop_not_next ho)
  · cases h
  · split at h
    · cases h
    split at h
    · cases h
      exact (Keeps.refl s).takeBoundaryExit
    · cases h
      exact (Keeps.refl s).guestOp

theorem eventStep_keeps {e : Event} (h : eventStep s e = .next t) : Keeps s t := by
  unfold eventStep at h
  split at h
  · rename_i ho
    exact absurd h (lpStop_not_next ho)
  · cases h
  · split at h
    · cases h
    split at h
    · cases h
      exact (Keeps.refl s).takeBoundaryExit
    · cases h
      exact (Keeps.refl s).guestEvent

/-! ## The host and the environment -/

/-- An operation that a condition guards keeps what it keeps when it is done. -/
theorem keeps_of_ite_some {c : Prop} [Decidable c] {u : State} (hu : Keeps s u)
    (h : (if c then some u else none) = some t) : Keeps s t := by
  obtain ⟨_, h⟩ := Option.ite_none_right_eq_some.1 h
  cases h
  exact hu

theorem hostOp_keeps {op : HostOp} (h : hostOp s op = some t) : Keeps s t := by
  have k := Keeps.refl s
  cases op with
  | memRead => exact keeps_of_ite_some k.modLp h
  | memWrite => exact keeps_of_ite_some k.writeShared h
  | clflush => exact keeps_of_ite_some k.evict h
  | wbinvd => cases h; exact k.flushEntries.flushStale
  | wbnoinvd => cases h; exact k.writeBackScope
  | pconfig => exact keeps_of_ite_some (k.agree {}) h
  | setGpr | setRsp | setRip | setRflags | setExt | setDr | setCr2 | setXcr0 | setCr | setSeg | setGdtr | setIdtr | setMsr
  | setMiscEnable | setTscAdjust | invept => cases h; exact k.modLp

theorem hostStep_keeps {op : HostOp} (h : hostStep s op = .next t) : Keeps s t := by
  unfold hostStep at h
  split at h
  · rename_i ho
    exact absurd h (lpStop_not_next ho)
  split at h
  · cases h
  split at h
  · cases h
  split at h
  · rename_i hs
    cases h
    exact hostOp_keeps hs
  · cases h

end

/-! ## The environment -/

section
variable {s t : State}

/-- The one step that moves the time-stamp counter moves it forward, by less than what it has left. -/
theorem advanceTsc_keeps {n : Nat} (hn : s.tsc.toNat + n < 2 ^ 64) : Keeps s { s with tsc := s.tsc + w64 n } := by
  refine ⟨id, id, fun k => hkidsDistinct_mono k rfl (fun _ => id) fun a y hy => ⟨y, hy, fun hold => ⟨hold, rfl⟩⟩, ?_⟩
  have hw : (w64 n).toNat = n := Nat.mod_eq_of_lt (by omega)
  rw [BitVec.le_def, BitVec.toNat_add_of_lt (by rw [hw]; exact hn)]
  exact Nat.le_add_right _ _

theorem evictStale_keeps {line hkid : Nat} (h : evictStale s line hkid = some t) : Keeps s t := by
  refine (Keeps.refl s).onlyMem ?_ fun hm => evictStale_wf line hkid hm h
  unfold evictStale at h
  split at h
  · cases h
    exact ⟨_, rfl⟩
  · cases h

theorem moduleStore_keeps {line hkid scope : Nat} (h : moduleStore s line hkid scope = some t) : Keeps s t := by
  refine (Keeps.refl s).onlyMem ?_ fun hm => moduleStore_wf line hkid scope hm h
  unfold moduleStore at h
  split at h
  · cases h
    exact ⟨_, rfl⟩
  · cases h

theorem fillLine_keeps {line hkid : Nat} (h : fillLine s line hkid = some t) : Keeps s t := by
  refine (Keeps.refl s).onlyMem ?_ fun hm => fillLine_wf line hkid hm h
  unfold fillLine at h
  split at h
  · cases h
  · cases h
    exact ⟨_, rfl⟩

theorem corruptLine_keeps (s : State) (line : Nat) : Keeps s (corruptLine s line) :=
  (Keeps.refl s).onlyMem ⟨_, rfl⟩ (corruptLine_wf line)

theorem moduleMachineCheck_keeps (s : State) (i : Nat) : Keeps s (moduleMachineCheck s i) :=
  (Keeps.refl s).setCurLp.unbreakableShutdown.setCurLp

theorem holdLock_keeps {id : LockId} {m : LockMode} (h : envOp s (.holdLock id m) = some t) : Keeps s t := by
  obtain ⟨l, _, rfl⟩ := Option.map_eq_some_iff.1 h
  exact (Keeps.refl s).agree {}

/-! ### Platform reset and module reload: no TD is left -/

theorem platformReset_keeps (s : State) : Keeps s (platformReset s) where
  mem := fun _ => memory_empty_wf
  lps := fun _ => List.length_map _
  hkids := fun _ => hkidsDistinct_of_tdrs_nil rfl
  tsc := BitVec.le_refl _

theorem Keeps.stalePages {es : List (Nat × PamtEntry)} {t : State} (h : Keeps s t) : Keeps s (stalePages t es) := by
  induction es generalizing t with
  | nil => exact h
  | cons e es ih =>
    unfold Machine.stalePages
    split
    · exact ih h.addStale
    · exact ih h

theorem Keeps.stalePamt {ts : List Tdmr} {t : State} (h : Keeps s t) : Keeps s (stalePamt t ts) := by
  induction ts generalizing t with
  | nil => exact h
  | cons d ts ih => exact ih h.addStale.addStale.addStale

theorem moduleReload_keeps (s : State) : Keeps s (moduleReload s) where
  mem := (Keeps.refl s).stalePages.stalePamt.mem
  lps := fun h => (List.length_map _).trans h
  hkids := fun _ => hkidsDistinct_of_tdrs_nil rfl
  tsc := BitVec.le_refl _

theorem envOp_keeps {op : EnvOp} (h : envOp s op = some t) : Keeps s t := by
  have k := Keeps.refl s
  cases op with
  | advanceTsc =>
    obtain ⟨⟨_, hn⟩, h⟩ := Option.ite_none_right_eq_some.1 h
    cases h
    exact advanceTsc_keeps hn
  | setEntropy => cases h; exact k.agree {}
  | setRaceLost => cases h; exact k.setRaceLost
  | setIntrPending | setYield | setApicMode | dropTlb => cases h; exact k.modLpAt
  | dmaWrite => exact keeps_of_ite_some k.writeDma h
  | dmaRead => exact keeps_of_ite_some k h
  | moduleMachineCheck i =>
    obtain ⟨_, h⟩ := Option.ite_none_left_eq_some.1 h
    cases h
    exact moduleMachineCheck_keeps s i
  | evict => exact keeps_of_ite_some k.evict h
  | evictStale => exact evictStale_keeps h
  | moduleStore => exact moduleStore_keeps (Option.ite_none_right_eq_some.1 h).2
  | fill => exact fillLine_keeps (Option.ite_none_right_eq_some.1 h).2
  | corrupt line => cases h; exact corruptLine_keeps s line
  | holdLock => exact holdLock_keeps h
  | dropLock => exact keeps_of_ite_some (k.agree {}) h
  | platformReset => cases h; exact platformReset_keeps s
  | moduleReload => exact keeps_of_ite_some (moduleReload_keeps s) h

theorem envStep_keeps {op : EnvOp} (h : envStep s op = .next t) : Keeps s t := by
  unfold envStep at h
  split at h
  · rename_i hs
    cases h
    exact envOp_keeps hs
  · cases h

/-! ## Every step -/

theorem runLabel_keeps {l : Label} (h : runLabel s l = .next t) : Keeps s t := by
  cases l with
  | call lp => exact (Keeps.refl s).setCurLp.trans (callStep_keeps h)
  | guest lp op => exact (Keeps.refl s).setCurLp.trans (guestStep_keeps h)
  | event lp e => exact (Keeps.refl s).setCurLp.trans (eventStep_keeps h)
  | host lp op => exact (Keeps.refl s).setCurLp.trans (hostStep_keeps h)
  | env op => exact envStep_keeps h

theorem step_keeps (h : step s = .next t) : Keeps s t := by
  unfold step at h
  split at h
  · exact ((Keeps.refl s).agree (u := s.ticked) {}).trans (callStep_keeps h)
  · split at h
    · exact Keeps.trans ((Keeps.refl s).agree {}) (runLabel_keeps h)
    · cases h

end

/-! ## The obligations -/

theorem reset_inv : Inv State.reset :=
  ⟨reset_memory_wf, by decide, hkidsDistinct_of_tdrs_nil rfl⟩

/-- Settles O46: after reset nothing is in memory and there is no TD. -/
theorem resetInv : Obligations.ResetInv := reset_inv

/-- Settles O47, by what every operation on the state keeps. -/
theorem stepKeepsInv : Obligations.StepKeepsInv := fun _ _ hs h => (step_keeps h).inv hs

end Sys2Proof.Machine
end

section
/-! PROOFS. TDG.MEM.PAGE.ACCEPT (O40; 44_tdcall.md rule R541): what its last step does when nothing stops
it, when the entry has changed meanwhile, and when the entry's line has been poisoned. -/

namespace Sys2Proof.Machine

open Safety

/-! ## Updates that change nothing, and reads that an update keeps -/

theorem tblMod_of_fixed {α : Type} {t : Table α} {i : Nat} {x : α} {f : α → α} (h : tblGet t i = some x)
    (hf : f x = x) : tblMod t i f = t := by
  induction t with
  | nil => rfl
  | cons e t ih =>
    obtain ⟨k, w⟩ := e
    by_cases hk : k = i
    · obtain rfl : w = x := by simpa [tblGet, hk] using h
      simp [tblMod, hk, hf]
    · simp only [tblGet, hk, if_false] at h
      simp [tblMod, hk, ih h]

theorem modVp_of_fixed {s : State} {v : Nat} {p : Tdvps} {f : Tdvps → Tdvps} (h : tblGet s.vps v = some p)
    (hf : f p = p) : s.modVp v f = s := by
  rw [State.modVp, tblMod_of_fixed h hf]

/-- The TDCALL exit has been recorded in the VCPU. -/
theorem tdcallEntered_get {s : State} {v : Nat} {p : Tdvps} (h : tblGet s.vps v = some p) :
    tblGet (s.tdcallEntered v).vps v = some (recordExit p tdcallExit) := modVp_get _ h

/-- The structures of a guest stay readable while memory, the PAMT, the TDs and the VCPU's list of pages stay (R271). -/
theorem SameReads.structuresReadable {s t : State} {v : Nat} {p q : Tdvps} (h : SameReads s t)
    (htd : t.tdrs = s.tdrs) (ht : t.tdmrs = s.tdmrs) (hg : t.globalHkid = s.globalHkid)
    (ho : t.ownerOf v = s.ownerOf v) (hs : tblGet s.vps v = some p) (hu : tblGet t.vps v = some q)
    (hq : q.pagePa = p.pagePa) : Machine.structuresReadable t v = Machine.structuresReadable s v := by
  unfold Machine.structuresReadable
  rw [hs, hu, htd, ho]
  cases tblGet s.tdrs (s.ownerOf v) with
  | none => rfl
  | some r => simp only [hq, hg, h.pageReadable, h.pamtReadable ht hg]

/-- The entry that a walk finds is the one that stands at its address. -/
theorem walkFrom_ok_entry {s : State} {k gpa : Nat} {target : Option Nat} {page n : Nat} {e : SeptPos}
    (h : walkFrom s k gpa target page n = .ok e) : septAt s e.addr = e.entry := by
  induction n generalizing page with
  | zero =>
    simp only [walkFrom] at h
    split at h
    · cases h
    · split at h <;> cases h
      rfl
  | succ n ih =>
    simp only [walkFrom] at h
    split at h
    · cases h
    · split at h
      · cases h; rfl
      · split at h
        · cases h; rfl
        · split at h
          · cases h
          · exact ih h

theorem septWalk_ok_entry {s : State} {c : Tdcs} {k gpa : Nat} {target : Option Nat} {e : SeptPos}
    (h : septWalk s c k gpa target = .ok e) : septAt s e.addr = e.entry := walkFrom_ok_entry h

/-! ## The chunks of an acceptance -/

theorem pages4k_bytes (level : Nat) : pages4k level * 4096 = pageBytes level := by
  rw [pages4k, pageBytes, pow_add, pow_mul, Nat.mul_comm]
  norm_num

@[simp] theorem pauseAt_none (r : AcceptRun) (fresh : Bool) : r.pauseAt fresh none = none := rfl

@[simp] theorem abortAt_none (r : AcceptRun) : r.abortAt none = none := rfl

/-- A 4KB page has one chunk, and the module looks for an interrupt before no other (R541 step 2.2). -/
theorem abortAt_4k {r : AcceptRun} (intr : Option Nat) (h : r.reqLevel = 0) : r.abortAt intr = none := by
  have hc : r.chunks = 1 := by simp [AcceptRun.chunks, pages4k, h]
  cases intr with
  | none => rfl
  | some n =>
    rw [AcceptRun.abortAt, if_neg]
    omega

/-- An acceptance that has not begun zeroes the whole page. -/
theorem zeroChunks_whole (s : State) (hkid : Nat) {r : AcceptRun} (h : r.done = 0) :
    zeroChunks s hkid r r.chunks = zeroDirect s hkid r.hpa (pageBytes r.reqLevel) := by
  have hc : 0 < r.chunks := Nat.pow_pos (by decide)
  rw [zeroChunks, h, if_pos hc, Nat.zero_mul, Nat.add_zero, Nat.sub_zero, AcceptRun.chunks, pages4k_bytes]

/-- An acceptance that has zeroed every chunk zeroes nothing more. -/
theorem zeroChunks_done (s : State) (hkid : Nat) {r : AcceptRun} (h : r.done = 512 ^ r.reqLevel) :
    zeroChunks s hkid r r.chunks = s := by
  have hc : r.chunks = r.done := h.symm
  rw [zeroChunks, if_neg (by omega)]

/-! ## The last step -/

section
variable {s : State} {v hkid : Nat} {base held : Locks} {r : AcceptRun} {fresh : Bool}

/-- No other agent acts and no interrupt stops the acceptance: it reaches its compare-and-exchange. -/
theorem acceptRun_finishes (hy : s.lp.yieldAt = none) (hi : r.abortAt s.lp.intrPending = none)
    (hp : linePoison s hkid (r.entry / 64) = false) :
    acceptRun s v hkid base held r fresh = acceptFinish (zeroChunks s hkid r r.chunks) v base r := by
  simp [acceptRun, hy, hi, hp]

/-- The compare-and-exchange reads poison (R271). -/
theorem acceptRun_poisoned (hy : s.lp.yieldAt = none) (hi : r.abortAt s.lp.intrPending = none)
    (hp : linePoison s hkid (r.entry / 64) = true) :
    acceptRun s v hkid base held r fresh = unbreakableShutdown (zeroChunks s hkid r r.chunks) := by
  simp [acceptRun, hy, hi, hp]

/-- The state of the compare-and-exchange: the entry lock is released, and the VCPU is in the middle of nothing. -/
def acceptClosed (s : State) (v : Nat) (base : Locks) : State :=
  { s with locks := base }.modVp v fun p => { p with accept := none }

theorem acceptFinish_wins (h : septAt s r.entry = ⟨.pending, true, r.hpa⟩) :
    acceptFinish s v base r =
      guestReturn ((acceptClosed s v base).setSept r.entry ⟨.present, true, r.hpa⟩) v Status.success 0 [] := by
  simp only [acceptFinish, h, if_true]
  rfl

theorem acceptFinish_loses (h : septAt s r.entry ≠ ⟨.pending, true, r.hpa⟩) :
    acceptFinish s v base r =
      guestExit (acceptClosed s v base) v (flowViolation .write r.gpa) .success
        (extQualAccept r.reqLevel r.entryLevel { septAt s r.entry with leaf := true }) := by
  simp only [acceptFinish, h, if_false]
  rfl

/-- A VCPU that was in the middle of nothing stays as it is. -/
theorem acceptClosed_idle {p : Tdvps} (h : tblGet s.vps v = some p) (ha : p.accept = none) :
    acceptClosed s v s.locks = s := by
  refine modVp_of_fixed (p := p) h ?_
  obtain ⟨⟩ := p
  cases ha
  rfl

theorem acceptClosed_get {p : Tdvps} (h : tblGet s.vps v = some p) :
    tblGet (acceptClosed s v base).vps v = some { p with accept := none } :=
  modVp_get (s := { s with locks := base }) _ h

end

/-! ## The start -/

/-- The row of Table 8.3 for a pending page of the requested size (R266). -/
theorem acceptWalk_pending {s : State} {t : Tdr} {c : Tdcs} {level gpa : Nat} {e : SeptPos}
    (hw : septWalk s c t.hkid gpa (some level) = .ok e) (hs : e.entry.state = .pending) (hl : e.entry.leaf = true) :
    acceptWalk s t c level gpa = .ok e := by
  simp [acceptWalk, hw, hs, hl, SeptState.isBlocked]

/-- A request whose checks pass and whose walk ends at a pending page runs with the entry locked. -/
theorem acceptStart_runs {s : State} {v level gpa : Nat} {t : Tdr} {c : Tdcs} {p : Tdvps} {e : SeptPos}
    (h11 : bitsOf p.gprs.rcx 11 3 = 0) (h63 : bitsOf p.gprs.rcx 63 52 = 0) (hlev : bitsOf p.gprs.rcx 2 0 = level)
    (hle : level ≤ 1) (hgpa : bitsOf p.gprs.rcx 51 12 * 4096 = gpa) (hpriv : c.privateGpa gpa = true)
    (hal : isAligned gpa (pageBytes level) = true) (hw : acceptWalk s t c level gpa = .ok e)
    (hk : Takable s (.septEntry e.addr)) :
    ∃ held, acceptStart s v t c p =
      .ok (acceptRun s v t.hkid s.locks held ⟨level, gpa, e.addr, e.level, e.entry.hpa, 0⟩ true) := by
  obtain ⟨held, hheld⟩ := acquire_ok (m := .exclusive) hk
  refine ⟨held, ?_⟩
  simp only [acceptStart, h11, h63, hlev, hle, hgpa, hpriv, hal, hw, hheld.got, beq_self_eq_true, decide_true,
    Bool.and_self, greq_true, gOr_some, bind, Except.bind, pure, Except.pure]

/-- A VCPU in the middle of nothing starts an acceptance. -/
theorem memPageAccept_starts {s : State} {v td : Nat} {t : Tdr} {c : Tdcs} {p : Tdvps} (h : RunsGuest s v td t c p)
    (ha : p.accept = none) :
    memPageAccept (s.tdcallEntered v) v = acceptStart (s.tdcallEntered v) v t c (recordExit p tdcallExit) := by
  simp only [memPageAccept, openGuest_ok h, recordExit_accept, ha, bind, Except.bind]

/-- A VCPU in the middle of an acceptance goes on with it. -/
theorem memPageAccept_resumes {s : State} {v td : Nat} {t : Tdr} {c : Tdcs} {p : Tdvps} {r : AcceptRun}
    (h : RunsGuest s v td t c p) (ha : p.accept = some r) :
    memPageAccept (s.tdcallEntered v) v =
      .ok (acceptRun (s.tdcallEntered v) v t.hkid (release s.locks (.septEntry r.entry)) s.locks r false) := by
  simp only [memPageAccept, openGuest_ok h, recordExit_accept, ha, bind, Except.bind, pure, Except.pure,
    State.tdcallEntered_locks]

theorem exec_accept {s u : State} {v td : Nat} {t : Tdr} {c : Tdcs} {p : Tdvps} (h : GuestCalls s v td t c p)
    (hb : memPageAccept (s.tdcallEntered v) v = .ok u) : exec .tdgMemPageAccept s = .next u :=
  (exec_guest _ rfl s).trans (guestCall_ok h hb)

theorem exec_accept_resumes {s : State} {v td : Nat} {t : Tdr} {c : Tdcs} {p : Tdvps} {r : AcceptRun}
    (h : GuestCalls s v td t c p) (ha : p.accept = some r) :
    exec .tdgMemPageAccept s =
      .next (acceptRun (s.tdcallEntered v) v t.hkid (release s.locks (.septEntry r.entry)) s.locks r false) :=
  exec_accept h (memPageAccept_resumes h.1 ha)

/-! ## The TD exit of a lost race -/

namespace TdExitFrom

variable {s u : State} {v : Nat} {p : Tdvps} {c : Tdcs} {x : VmExit} {cls : ExitClass} {q : Word}

theorem curVcpu (h : TdExitFrom s u v p c x cls q) : u.lp.curVcpu = none := congrArg Lp.curVcpu h.lp

theorem gprs (h : TdExitFrom s u v p c x cls q) : u.lp.gprs = asyncExitGprs s.lp.gprs cls x q :=
  congrArg Lp.gprs h.lp

theorem mem (h : TdExitFrom s u v p c x cls q) : u.mem = s.mem := by rw [h.rest]

theorem sept (h : TdExitFrom s u v p c x cls q) : u.sept = s.sept := by rw [h.rest]

end TdExitFrom

theorem flowViolation_basic (kind : AccessKind) (gpa : Nat) : (flowViolation kind gpa).basic = 48 := by
  show bitsOf 48 15 0 = 48
  decide

/-- The registers of the host after the TD exit of an acceptance (R541 step 3.1, R702, D38). -/
theorem asyncExitGprs_accept (g : Gprs) (gpa : Nat) (q : Word) :
    asyncExitGprs g .success (flowViolation .write gpa) q =
      { Gprs.zero with rax := 48, rcx := 2, rdx := q, r8 := w64 gpa &&& ~~~0xFFF, rbp := g.rbp } := by
  have hrax : statusWord ExitClass.success.value (exitReasonOut (flowViolation .write gpa)).toNat = 48 := by
    show statusWord Status.success ((48 : Word) &&& 0x0400FFFF).toNat = 48
    decide
  have hrcx : exitQualOut (flowViolation .write gpa) = 2 := by
    rw [exitQualOut, if_pos (flowViolation_basic _ _)]
    show (2 ||| (0 : Word) <<< (3 : Nat)) &&& ~~~0x1F80 = 2
    decide
  have hr8 : gpaOut (flowViolation .write gpa) = w64 gpa &&& ~~~0xFFF := if_pos (.inl (flowViolation_basic _ _))
  have hr9 : intrInfoOut (flowViolation .write gpa) = 0 := by
    simp [intrInfoOut, flowViolation_basic]
  simp only [asyncExitGprs, hrax, hrcx, hr8, hr9]
  rfl

/-- A running guest whose acceptance has been closed takes the TD exit. -/
theorem acceptClosed_exit {s : State} {v td : Nat} {t : Tdr} {c : Tdcs} {p : Tdvps} {base : Locks}
    (h : RunsGuest s v td t c p) (hm : s.lp.apicModeOk = true) (hk : entryLocksHeld base v td = true) (x : VmExit)
    (q : Word) :
    TdExitFrom (acceptClosed (s.tdcallEntered v) v base)
      (guestExit (acceptClosed (s.tdcallEntered v) v base) v x .success q) v
      { recordExit p tdcallExit with accept := none } c x .success q := by
  obtain ⟨hcur, _, _, hdis, hvp, rfl, _, hc, hread⟩ := h
  have hget := acceptClosed_get (base := base) (tdcallEntered_get hvp)
  have hreads : SameReads s (acceptClosed (s.tdcallEntered v) v base) := ⟨rfl, rfl, rfl, rfl, rfl⟩
  have hstruct : structuresReadable (acceptClosed (s.tdcallEntered v) v base) v = true :=
    (hreads.structuresReadable rfl rfl rfl rfl hvp hget rfl).trans hread
  have hcls : exitClass (acceptClosed (s.tdcallEntered v) v base) .success = .success := if_pos hm
  have hexit := asyncTdExit_from (s := acceptClosed (s.tdcallEntered v) v base) x .success q hcur hget hc hk
  rw [hcls] at hexit
  rw [guestExit, serveExit_handled (s := acceptClosed (s.tdcallEntered v) v base) _ hdis hstruct]
  exact hexit

/-! ## The obligation -/

/-- O40, first part: the acceptance completes in one step. -/
theorem exec_accept_completes {s : State} {v td level gpa : Nat} {t : Tdr} {c : Tdcs} {p : Tdvps} {e : SeptPos}
    (h : GuestCalls s v td t c p) (ha : p.accept = none) (hy : s.lp.yieldAt = none)
    (h11 : bitsOf p.gprs.rcx 11 3 = 0) (h63 : bitsOf p.gprs.rcx 63 52 = 0) (hlev : bitsOf p.gprs.rcx 2 0 = level)
    (hle : level ≤ 1) (hgpa : bitsOf p.gprs.rcx 51 12 * 4096 = gpa) (hpriv : c.privateGpa gpa = true)
    (hal : isAligned gpa (pageBytes level) = true) (hw : septWalk s c t.hkid gpa (some level) = .ok e)
    (hs : e.entry.state = .pending) (hl : e.entry.leaf = true) (hk : Takable s (.septEntry e.addr))
    (hi : level = 1 → s.lp.intrPending = none) :
    exec .tdgMemPageAccept s =
      .next (guestReturn
        ((zeroDirect (s.tdcallEntered v) t.hkid e.entry.hpa (pageBytes level)).setSept e.addr
          ⟨.present, true, e.entry.hpa⟩) v Status.success 0 []) := by
  have hwalk : acceptWalk (s.tdcallEntered v) t c level gpa = .ok e :=
    acceptWalk_pending (((tdcallEntered_reads s v).septWalk rfl c _ _ _).trans hw) hs hl
  obtain ⟨held, hstart⟩ := acceptStart_runs (s := s.tdcallEntered v) (v := v) (p := recordExit p tdcallExit)
    h11 h63 hlev hle hgpa hpriv hal hwalk hk
  have habort : (⟨level, gpa, e.addr, e.level, e.entry.hpa, 0⟩ : AcceptRun).abortAt s.lp.intrPending = none := by
    rcases Nat.le_one_iff_eq_zero_or_eq_one.1 hle with h0 | h1
    · exact abortAt_4k _ h0
    · rw [hi h1, abortAt_none]
  have hclean : linePoison (s.tdcallEntered v) t.hkid (e.addr / 64) = false :=
    ((tdcallEntered_reads s v).linePoison _ _).trans (septWalk_ok_clean hw)
  have hentry : septAt s e.addr = ⟨.pending, true, e.entry.hpa⟩ := by
    rw [septWalk_ok_entry hw, ← hs, ← hl]
  obtain ⟨_, _, _, _, hvp, _⟩ := h.1
  have hclosed : acceptClosed (zeroDirect (s.tdcallEntered v) t.hkid e.entry.hpa (pageBytes level)) v
      (s.tdcallEntered v).locks = zeroDirect (s.tdcallEntered v) t.hkid e.entry.hpa (pageBytes level) :=
    acceptClosed_idle (p := recordExit p tdcallExit) (tdcallEntered_get hvp) ha
  refine exec_accept h ?_
  rw [memPageAccept_starts h.1 ha, hstart, acceptRun_finishes (s := s.tdcallEntered v) hy habort hclean,
    zeroChunks_whole _ _ rfl, acceptFinish_wins hentry, hclosed]

/-- O40, second part: the entry is no longer the pending one. -/
theorem exec_accept_raced {s : State} {v td : Nat} {t : Tdr} {c : Tdcs} {p : Tdvps} {r : AcceptRun}
    (h : GuestCalls s v td t c p) (ha : p.accept = some r) (hd : r.done = 512 ^ r.reqLevel)
    (hy : s.lp.yieldAt = none) (hi : s.lp.intrPending = none) (hm : s.lp.apicModeOk = true)
    (hne : septAt s r.entry ≠ ⟨.pending, true, r.hpa⟩) (hp : linePoison s t.hkid (r.entry / 64) = false)
    (hk : entryLocksHeld (release s.locks (.septEntry r.entry)) v td = true) :
    ∃ u q, exec .tdgMemPageAccept s = .next u ∧ u.lp.curVcpu = none ∧ u.mem = s.mem ∧ u.sept = s.sept ∧
      u.lp.gprs =
        { Gprs.zero with
          rax := 48, rcx := 2, rdx := extQualAccept r.reqLevel r.entryLevel { septAt s r.entry with leaf := true },
          r8 := w64 r.gpa &&& ~~~0xFFF, rbp := s.lp.gprs.rbp } ∧
      u.locks = releaseEntryLocks (release s.locks (.septEntry r.entry)) v td ∧
      tblGet u.vps v = some q ∧ q.accept = none ∧ q.vcpuState = .readyAsync ∧ q.gprs = p.gprs ∧
      q.vm Vmcs.rip = p.vm Vmcs.rip := by
  have habort : r.abortAt s.lp.intrPending = none := by rw [hi, abortAt_none]
  have hclean := ((tdcallEntered_reads s v).linePoison t.hkid (r.entry / 64)).trans hp
  have hexit := acceptClosed_exit h.1 hm hk (flowViolation .write r.gpa)
    (extQualAccept r.reqLevel r.entryLevel { septAt s r.entry with leaf := true })
  have hrun := exec_accept_resumes h ha
  rw [acceptRun_finishes (s := s.tdcallEntered v) hy habort hclean, zeroChunks_done _ _ hd,
    acceptFinish_loses (s := s.tdcallEntered v) hne] at hrun
  obtain ⟨_, _, _, _, _, rfl, _, _, _⟩ := h.1
  refine ⟨_, _, hrun, hexit.curVcpu, hexit.mem, hexit.sept, hexit.gprs.trans (asyncExitGprs_accept _ _ _),
    hexit.locks, hexit.vp, rfl, rfl, rfl, ?_⟩
  calc (recordExit { recordExit p tdcallExit with accept := none } (flowViolation .write r.gpa)).vm Vmcs.rip
      = (recordExit p tdcallExit).vm Vmcs.rip := recordExit_vm _ _ _ (by decide)
    _ = p.vm Vmcs.rip := recordExit_vm _ _ _ (by decide)

/-- O40, third part: the line of the entry has been poisoned. -/
theorem exec_accept_poisoned {s : State} {v td : Nat} {t : Tdr} {c : Tdcs} {p : Tdvps} {r : AcceptRun}
    (h : GuestCalls s v td t c p) (ha : p.accept = some r) (hy : s.lp.yieldAt = none) (hi : s.lp.intrPending = none)
    (hp : linePoison s t.hkid (r.entry / 64) = true) :
    ∃ u, exec .tdgMemPageAccept s = .next u ∧ u.seamDisabled = true := by
  have habort : r.abortAt s.lp.intrPending = none := by rw [hi, abortAt_none]
  have hbad := ((tdcallEntered_reads s v).linePoison t.hkid (r.entry / 64)).trans hp
  have hrun := exec_accept_resumes h ha
  rw [acceptRun_poisoned (s := s.tdcallEntered v) hy habort hbad] at hrun
  exact ⟨_, hrun, unbreakableShutdown_seamDisabled _⟩

/-- Settles O40, by the three ways in which the last step of an acceptance can end. -/
theorem pageAcceptCompletes : Obligations.PageAcceptCompletes :=
  ⟨fun _s _v _td _t _c _p _level _gpa _e => exec_accept_completes,
    fun _s _v _td _t _c _p _r => exec_accept_raced,
    fun _s _v _td _t _c _p _r h ha _done => exec_accept_poisoned h ha⟩

end Sys2Proof.Machine
end

section
/-! PROOFS. What a host-side function that returns keeps of the logical processors (O50, O51; 30_encoding.md rule R326):
a rule for each operation on the state that its answer is made of. -/

namespace Sys2Proof.Machine

open Safety

/-! ## The logical processors -/

/-- What a host-side function that returns keeps of the logical processors: of the calling one all but its cached
translations, its two flags of the module and the extended-state components of `m`, which are cleared; of another one all
but LP_INIT_DONE. -/
structure LpsKept (m : Word) (s u : State) : Prop where
  plat : u.plat = s.plat
  curLp : u.curLp = s.curLp
  length : u.lps.length = s.lps.length
  current : u.lp = { s.lp with
    tlb := u.lp.tlb, initDone := u.lp.initDone, seamcallBlocked := u.lp.seamcallBlocked, ext := extInit m s.lp.ext }
  others : ∀ j, j ≠ s.curLp → u.lpAt j = { s.lpAt j with initDone := (u.lpAt j).initDone }

/-- What the end of a host-side function reads and writes of the state: the platform and the logical processors. -/
def State.lpView (s : State) : Platform × Nat × List Lp := (s.plat, s.curLp, s.lps)

section
variable (s : State)

@[simp] theorem State.modTdr_lpView (a : Nat) (f : Tdr → Tdr) : (s.modTdr a f).lpView = s.lpView := rfl
@[simp] theorem State.modTdcs_lpView (a : Nat) (f : Tdcs → Tdcs) : (s.modTdcs a f).lpView = s.lpView := rfl
@[simp] theorem State.modVp_lpView (v : Nat) (f : Tdvps → Tdvps) : (s.modVp v f).lpView = s.lpView := rfl
@[simp] theorem State.setKot_lpView (h : Nat) (e : KotEntry) : (s.setKot h e).lpView = s.lpView := rfl
@[simp] theorem State.setWbt_lpView (i : Nat) (e : WbtEntry) : (s.setWbt i e).lpView = s.lpView := rfl
@[simp] theorem State.setSept_lpView (a : Nat) (e : SeptEntry) : (s.setSept a e).lpView = s.lpView := rfl
@[simp] theorem State.clearSeptPage_lpView (a : Nat) : (s.clearSeptPage a).lpView = s.lpView := rfl
@[simp] theorem State.fillSeptPage_lpView (a : Nat) (f : Nat → SeptEntry) :
    (s.fillSeptPage a f).lpView = s.lpView := rfl
@[simp] theorem writeDirect_lpView (h a : Nat) (bs : List Byte) : (writeDirect s h a bs).lpView = s.lpView := rfl
@[simp] theorem zeroDirect_lpView (h a n : Nat) : (zeroDirect s h a n).lpView = s.lpView := rfl
@[simp] theorem writeCached_lpView (h a : Nat) (bs : List Byte) : (writeCached s h a bs).lpView = s.lpView := rfl

@[simp] theorem writeShared_lpView (a : Nat) (bs : List Byte) : (writeShared s a bs).lpView = s.lpView := by
  simp [State.lpView]

@[simp] theorem State.assignPage_lpView (a l : Nat) (t : PageType) (o : Nat) :
    (s.assignPage a l t o).lpView = s.lpView := by
  simp [State.lpView]

@[simp] theorem State.freePage_lpView (a l : Nat) : (s.freePage a l).lpView = s.lpView := by simp [State.lpView]

@[simp] theorem State.setBepoch_lpView (a l : Nat) (e : Word) : (s.setBepoch a l e).lpView = s.lpView := by
  simp [State.lpView]

@[simp] theorem assignPages_lpView (a l : Nat) (t : PageType) (o n : Nat) :
    (assignPages s a l t o n).lpView = s.lpView := by
  induction n with
  | zero => rfl
  | succ n ih => rw [assignPages, State.assignPage_lpView, ih]

@[simp] theorem freePages_lpView (a l n : Nat) : (freePages s a l n).lpView = s.lpView := by
  induction n with
  | zero => rfl
  | succ n ih => rw [freePages, State.freePage_lpView, ih]

@[simp] theorem State.forget_lpView (a : Nat) (t : PageType) : (s.forget a t).lpView = s.lpView := by
  unfold State.forget
  split <;> rfl

variable {s} in
/-- An update of memory alone. -/
theorem lpView_of_mem {t u : State} (h : ∃ m, t = { u with mem := m }) : t.lpView = u.lpView := by
  obtain ⟨m, rfl⟩ := h
  rfl

@[simp] theorem cleanEntries_lpView (es : List (Nat × CacheEntry)) : (cleanEntries s es).lpView = s.lpView :=
  lpView_of_mem (cleanEntries_frame s es)

@[simp] theorem writeBackScope_lpView (scope : Nat) : (writeBackScope s scope).lpView = s.lpView :=
  (lpView_of_mem (flushStale_frame _ scope)).trans (cleanEntries_lpView s _)

@[simp] theorem flushPage_lpView (h a : Nat) : (flushPage s h a).lpView = s.lpView :=
  (lpView_of_mem (flushStaleLines_frame _ h _)).trans (lpView_of_mem (flushEntries_frame s _))

@[simp] theorem clearScope_lpView (scope : Nat) (hs : List Nat) : (clearScope s scope hs).lpView = s.lpView := by
  induction hs generalizing s with
  | nil => rfl
  | cons h hs ih => exact ih _

@[simp] theorem zeroPamtLines_lpView (t : Tdmr) (b l lo hi : Nat) : (zeroPamtLines s t b l lo hi).lpView = s.lpView := by
  unfold zeroPamtLines
  dsimp only
  split <;> rfl

theorem setTdmrs_lpView (ts : List Tdmr) : { s with tdmrs := ts }.lpView = s.lpView := rfl

theorem setShutdown_lpView : { s with sysState := .sysShutdown }.lpView = s.lpView := rfl

theorem setPamtTables_lpView (k m g : Table PamtEntry) :
    { s with pamt4k := k, pamt2m := m, pamt1g := g }.lpView = s.lpView := rfl

@[simp] theorem initPamt_lpView (t : Tdmr) (lo hi : Nat) : (initPamt s t lo hi).lpView = s.lpView := by
  unfold initPamt
  exact (setPamtTables_lpView _ _ _ _).trans (by simp)

end

theorem extInit_zero (ext : RegFile) : extInit 0 ext = ext := by simp [extInit, bit]

/-- No component outside XFAM is in a part of it. -/
theorem and_andNot_self (x y : Word) : x &&& y &&& ~~~x = 0 := by
  rw [BitVec.and_comm x, BitVec.and_assoc, BitVec.and_not_self]
  simp

namespace LpsKept

variable {m : Word} {s t u : State}

protected theorem refl (s : State) : LpsKept 0 s s := ⟨rfl, rfl, rfl, by rw [extInit_zero], fun _ _ => rfl⟩

theorem congr (h : LpsKept m s t) (e : u.lpView = t.lpView) : LpsKept m s u := by
  obtain ⟨hp, hc, hl⟩ : u.plat = t.plat ∧ u.curLp = t.curLp ∧ u.lps = t.lps := by simpa [State.lpView] using e
  have same (j : Nat) : u.lpAt j = t.lpAt j := by rw [State.lpAt, State.lpAt, hl]
  refine ⟨hp.trans h.plat, hc.trans h.curLp, by rw [hl, h.length], ?_, fun j hj => ?_⟩
  · rw [State.lp, hc, same]
    exact h.current
  · rw [same]
    exact h.others j hj

theorem of_lpView (h : u.lpView = s.lpView) : LpsKept 0 s u := (LpsKept.refl s).congr h

/-- An update of the calling logical processor's cached translations and flags of the module. -/
theorem modLp (h : LpsKept m s t) (hc : s.curLp < s.lps.length) {f : Lp → Lp}
    (hf : f t.lp = { t.lp with
      tlb := (f t.lp).tlb, initDone := (f t.lp).initDone, seamcallBlocked := (f t.lp).seamcallBlocked }) :
    LpsKept m s (t.modLp f) := by
  have e : (t.modLp f).lp = f t.lp := modLp_lp f (by rw [h.curLp, h.length]; exact hc)
  refine ⟨h.plat, h.curLp, (modLp_lps_length t f).trans h.length, ?_, fun j hj => ?_⟩
  · rw [e]
    exact hf.trans (congrArg (fun l : Lp => { l with
      tlb := (f t.lp).tlb, initDone := (f t.lp).initDone, seamcallBlocked := (f t.lp).seamcallBlocked }) h.current)
  · rw [modLp_lpAt_other f (by rw [h.curLp]; exact hj)]
    exact h.others j hj

theorem clearExt (m : Word) (hc : s.curLp < s.lps.length) :
    LpsKept m s (s.modLp fun l => { l with ext := extInit m l.ext }) := by
  refine ⟨rfl, rfl, modLp_lps_length _ _, ?_, fun j hj => ?_⟩
  · rw [modLp_lp _ hc]
  · rw [modLp_lpAt_other _ hj]

/-- The calling logical processor after SEAMRET. -/
theorem hostReturn_lp (h : LpsKept m s u) (hc : s.curLp < s.lps.length) (v d : Nat) (outs : List (Reg × Word)) :
    (hostReturn u v d outs).lp =
      { s.lp with
        tlb := u.lp.tlb, initDone := u.lp.initDone, seamcallBlocked := u.lp.seamcallBlocked, ext := extInit m s.lp.ext,
        gprs := (s.lp.gprs.setAll outs).set .rax (statusWord v d), rip := s.lp.rip + w64 s.plat.seamcallLength } := by
  have e := Machine.hostReturn_lp (s := u) v d outs (by rw [h.curLp, h.length]; exact hc)
  rw [h.current, h.plat] at e
  exact e

end LpsKept

end Sys2Proof.Machine
end

section
/-! PROOFS. How a call that does not reach its function is refused (O49; 30_encoding.md rules R321 and R328,
60_exceptions.md rules R752 and R711). -/

namespace Sys2Proof.Machine

open Safety

/-! ## SEAMCALL -/

/-- SEAMCALL in root mode, on a logical processor that executes, gives the next state that the checks of R752 and R321
choose. -/
theorem hostCall_root {s : State} {sys : Bool} {body : State → Fn State} (h1 : s.curLp < s.lps.length)
    (h2 : s.lp.shutdown = false) (h3 : s.lp.curVcpu = none) : hostCall sys body s = .next (rootCall sys body s) := by
  simp only [hostCall, lpStop_none h1 h2, h3]

theorem rootCall_disabled {s : State} (sys : Bool) (body : State → Fn State) (h : s.seamDisabled = true) :
    rootCall sys body s = vmfailInvalid s := if_pos h

theorem rootCall_blocked {s : State} (sys : Bool) (body : State → Fn State) (h1 : s.seamDisabled = false)
    (h2 : s.lp.seamcallBlocked = true) : rootCall sys body s = blockedReturn s := by
  simp [rootCall, h1, h2]

/-- Before the module is ready, and while it is shut down, a function that is not of the initialisation returns a status
and nothing else. -/
theorem hostCall_notReady {s : State} (body : State → Fn State) (h : HostCalls s) (hr : s.sysState ≠ .sysReady) :
    hostCall false body s =
      .next (hostReturn s (if s.sysState = .sysShutdown then Status.sysShutdown else Status.sysNotReady) 0 []) := by
  obtain ⟨h1, h2, h3, h4, h5⟩ := h
  rw [hostCall_root h1 h2 h3]
  by_cases hs : s.sysState = .sysShutdown <;> simp [rootCall, h4, h5, hr, hs]

/-- The functions of the initialisation. -/
theorem sysLeaf_iff {i : Instr} : sysLeaf i = true ↔
    i ∈ [Instr.tdhSysInfo, .tdhSysInit, .tdhSysLpInit, .tdhSysConfig, .tdhSysKeyConfig, .tdhSysLpShutdown] := by
  cases i <;> decide

theorem notShutdown_refuses {s : State} (h : s.sysState = .sysShutdown) :
    notShutdown s = .error (bad Status.sysShutdown 0) := by simp [notShutdown, h]

/-- Of a module that is shut down, a function of the initialisation, TDH.SYS.LP.SHUTDOWN apart, returns
TDX_SYS_SHUTDOWN and 0 in each of its outputs (R485, R486, R488). -/
theorem sysBody_shutdown {s : State} {i : Instr} (hs : s.sysState = .sysShutdown) (hi : sysLeaf i = true)
    (hne : i ≠ .tdhSysLpShutdown) :
    hostBody i s = .error (.status Status.sysShutdown 0 ((hostOutputs i).map fun r => (r, 0))) := by
  have refused := notShutdown_refuses hs
  cases i with
  | tdhSysInfo => simp only [hostBody, sysInfo, refused, abort_stops]; rfl
  | tdhSysInit => simp only [hostBody, sysInit, refused, abort_stops]; rfl
  | tdhSysLpInit => simp only [hostBody, sysLpInit, refused, abort_stops]; rfl
  | tdhSysConfig => simp only [hostBody, sysConfig, refused, abort_stops]; rfl
  | tdhSysKeyConfig => simp only [hostBody, sysKeyConfig, refused, abort_stops]; rfl
  | tdhSysLpShutdown => exact absurd rfl hne
  | _ => cases hi

theorem exec_shutdown {s : State} {i : Instr} (hi : i.side = .seamcall) (hw : i = .tdhMemWr → s.lp.memWr = none)
    (h : HostCalls s) (hs : s.sysState = .sysShutdown) (hne : i ≠ .tdhSysLpShutdown) :
    exec i s = .next (hostReturn s Status.sysShutdown 0
      (if sysLeaf i = true then (hostOutputs i).map fun r => (r, 0) else [])) := by
  rw [exec_host i hi s hw]
  cases hl : sysLeaf i with
  | true => exact hostCall_error h (.inl rfl) (sysBody_shutdown hs hl hne)
  | false => rw [hostCall_notReady _ h (by simp [hs]), if_pos hs]; rfl

/-! ## TDCALL -/

/-- TDCALL outside 64-bit mode: #GP(0), at the TDCALL. -/
theorem exec_tdcall_outside64 {s : State} {v td : Nat} {t : Tdr} {c : Tdcs} {p : Tdvps} {i : Instr}
    (h : RunsGuest s v td t c p) (hi : i.side = .tdcall) (h64 : p.in64 = false) (hd : intercepted s v 13 = false) :
    exec i s = .next (s.modVp v fun p => (injectException (recordExit p tdcallExit) 13 (some 0)).entering) := by
  obtain ⟨h1, h2, h3, h4, h5, _, _, _, h9⟩ := h
  have fault := guestFault_injects (error := some 0) tdcallExit h4 h9 hd
  simp only [exec_guest i hi, guestCall, lpStop_none h1 h2, h3, guestTdcall, h5, serveExit_handled _ h4 h9, tdcallFrom, h64,
    Bool.not_false, if_true, fault]

theorem tdcall_outside64_takes_gp {s : State} {v td : Nat} {t : Tdr} {c : Tdcs} {p : Tdvps} {i : Instr}
    (h : RunsGuest s v td t c p) (hi : i.side = .tdcall) (h64 : p.in64 = false) (hd : intercepted s v 13 = false) :
    ∃ u q, exec i s = .next u ∧ u = { s with vps := u.vps } ∧ tblGet u.vps v = some q ∧
      (∀ w, w ≠ v → tblGet u.vps w = tblGet s.vps w) ∧ q.event = some (13, some 0) ∧ q.gprs = p.gprs ∧
      q.vm Vmcs.rip = p.vm Vmcs.rip := by
  refine ⟨_, _, exec_tdcall_outside64 h hi h64 hd, rfl, modVp_get _ ?_, fun w hw => modVp_get_other _ _ hw, ?_, ?_,
    injected_rip p _ _ _⟩
  · obtain ⟨_, _, _, _, hp, _⟩ := h
    exact hp
  · simp
  · simp

/-! ## The obligation -/

/-- Settles O49: each refusal is the branch of SEAMCALL's or TDCALL's common entry that its hypotheses choose. -/
theorem seamcallRefusals : Obligations.SeamcallRefusals := by
  refine ⟨fun s i hi h1 h2 h3 hw => ⟨fun hd => ?_, fun hd hb => ?_, fun h hs hne => ?_, fun h hr hs hn => ?_, fun h => ?_⟩,
    fun s v td t c p h => ⟨fun i hi h64 hd => tdcall_outside64_takes_gp h hi h64 hd, fun h64 => ?_⟩⟩
  · rw [exec_host i hi s hw, hostCall_root h1 h2 h3, rootCall_disabled _ _ hd]; rfl
  · rw [exec_host i hi s hw, hostCall_root h1 h2 h3, rootCall_blocked _ _ hd hb]; rfl
  · simp only [exec_shutdown hi hw h hs hne, sysLeaf_iff]
  · rw [← sysLeaf_iff, Bool.not_eq_true] at hn
    rw [exec_host i hi s hw, hn, hostCall_notReady _ h hr, if_neg hs]
  · exact hostCall_reaches h (.inl rfl)
  · exact guestCall_status ⟨h, h64⟩ rfl

end Sys2Proof.Machine
end

section
/-! PROOFS. The outputs of a host-side function that aborts (O50, O51; 30_encoding.md rules R322 and R326): they are
followed through the checks that the functions share, so that of each function only its own list is left to compare. -/

namespace Sys2Proof.Machine

open Safety

/-! ## Outputs -/

/-- The registers that a list of outputs writes are among `rs`. -/
def OutputsIn (rs : List Reg) (outs : List (Reg × Word)) : Prop := ∀ e ∈ outs, e.1 ∈ rs

@[simp] theorem outputsIn_nil (rs : List Reg) : OutputsIn rs [] := nofun

@[simp] theorem outputsIn_cons {rs : List Reg} {r : Reg} {x : Word} {outs : List (Reg × Word)} :
    OutputsIn rs ((r, x) :: outs) ↔ r ∈ rs ∧ OutputsIn rs outs := by simp [OutputsIn]

@[simp] theorem outputsIn_append {rs : List Reg} {o o' : List (Reg × Word)} :
    OutputsIn rs (o ++ o') ↔ OutputsIn rs o ∧ OutputsIn rs o' := by
  simp only [OutputsIn, List.mem_append, or_imp, forall_and]

@[simp] theorem outputsIn_memOuts {rs : List Reg} : OutputsIn rs memOuts ↔ .rcx ∈ rs ∧ .rdx ∈ rs := by
  simp [memOuts]

@[simp] theorem outputsIn_septOuts {rs : List Reg} (c : Tdcs) (p : SeptPos) :
    OutputsIn rs (septOuts c p) ↔ .rcx ∈ rs ∧ .rdx ∈ rs := by simp [septOuts]

@[simp] theorem outputsIn_chunkOuts {rs : List Reg} :
    OutputsIn rs chunkOuts ↔ .rcx ∈ rs ∧ .rdx ∈ rs ∧ .r8 ∈ rs := by
  simp [chunkOuts]

@[simp] theorem outputsIn_lpInitOuts {rs : List Reg} :
    OutputsIn rs lpInitOuts ↔ .rcx ∈ rs ∧ .rdx ∈ rs ∧ .r8 ∈ rs := by
  simp [lpInitOuts]

theorem outputsIn_pageOuts : OutputsIn (hostOutputs .tdhPhymemPageReclaim) pageOuts := by
  simp [pageOuts, hostOutputs]

theorem outputsIn_reclaimOuts (e : PamtEntry) (level : Nat) :
    OutputsIn (hostOutputs .tdhPhymemPageReclaim) (reclaimOuts e level) := by simp [reclaimOuts, hostOutputs]

theorem outputsIn_sysInitOuts : OutputsIn (hostOutputs .tdhSysInit) sysInitOuts := by simp [sysInitOuts, hostOutputs]

theorem Gprs.get_set (g : Gprs) (r q : Reg) (x : Word) : (g.set r x).get q = if r = q then x else g.get q := by
  cases r <;> cases q <;> rfl

/-- A register that no output names keeps its value. -/
theorem Gprs.get_setAll {rs : List Reg} {outs : List (Reg × Word)} {q : Reg} (h : OutputsIn rs outs) (hq : q ∉ rs)
    (g : Gprs) : (g.setAll outs).get q = g.get q := by
  induction outs generalizing g with
  | nil => rfl
  | cons e outs ih =>
    obtain ⟨r, x⟩ := e
    obtain ⟨hr, hrest⟩ := outputsIn_cons.1 h
    rw [Gprs.setAll, ih hrest, Gprs.get_set, if_neg fun e : r = q => hq (e ▸ hr)]

/-! ## The outputs of an abort -/

/-- An abort that returns a status writes no register outside `rs` but RAX. -/
def HostAbort.Within (rs : List Reg) : HostAbort → Prop
  | .status _ _ outs => OutputsIn rs outs
  | .unbreakable | .fatal => True

@[simp] theorem HostAbort.status_within {rs : List Reg} {v d : Nat} {outs : List (Reg × Word)} :
    (HostAbort.status v d outs).Within rs ↔ OutputsIn rs outs := .rfl

@[simp] theorem HostAbort.unbreakable_within (rs : List Reg) : HostAbort.unbreakable.Within rs := trivial

@[simp] theorem HostAbort.fatal_within (rs : List Reg) : HostAbort.fatal.Within rs := trivial

@[simp] theorem bad_within (rs : List Reg) (v d : Nat) : (bad v d).Within rs := outputsIn_nil rs

@[simp] theorem eptBad_within (rs : List Reg) (v : Nat) : (eptBad v).Within rs := outputsIn_nil rs

@[simp] theorem fieldMissing_within (rs : List Reg) (e : Nat) : (fieldMissing e).Within rs := outputsIn_nil rs

/-- Whatever abort the function ends in, it writes no register outside `rs` but RAX. -/
def AbortsWithin {α : Type} (rs : List Reg) (r : Fn α) : Prop := ∀ e, r = .error e → e.Within rs

namespace AbortsWithin

variable {rs : List Reg} {α β : Type}

@[simp] theorem ok (x : α) : AbortsWithin rs (Except.ok x : Fn α) := nofun

@[simp] theorem pure (x : α) : AbortsWithin rs (Pure.pure x : Fn α) := nofun

@[simp] theorem error_iff {e : HostAbort} : AbortsWithin rs (Except.error e : Fn α) ↔ e.Within rs :=
  ⟨fun h => h e rfl, fun h _ k => Except.error.inj k ▸ h⟩

theorem bind {x : Fn α} {f : α → Fn β} (hx : AbortsWithin rs x) (hf : ∀ a, AbortsWithin rs (f a)) :
    AbortsWithin rs (x >>= f) := by
  cases x with
  | ok a => exact hf a
  | error e => exact error_iff.2 (error_iff.1 hx)

theorem ite {c : Prop} [Decidable c] {x y : Fn α} (hx : AbortsWithin rs x) (hy : AbortsWithin rs y) :
    AbortsWithin rs (if c then x else y) := by
  split
  · exact hx
  · exact hy

@[simp] theorem req {c : Bool} {a : HostAbort} (h : a.Within rs) : AbortsWithin rs (req c a) := by
  cases c
  · exact error_iff.2 h
  · exact ok ()

@[simp] theorem getOr {o : Option α} {a : HostAbort} (h : a.Within rs) : AbortsWithin rs (getOr o a) := by
  cases o
  · exact error_iff.2 h
  · exact ok _

theorem withOuts {outs : List (Reg × Word)} {r : Fn State} (ho : OutputsIn rs outs) (hr : AbortsWithin rs r) :
    AbortsWithin rs (withOuts outs r) := by
  cases r with
  | ok s => exact ok s
  | error e =>
    have he := error_iff.1 hr
    cases e with
    | status v d o => exact error_iff.2 (outputsIn_append.2 ⟨ho, he⟩)
    | unbreakable => exact error_iff.2 trivial
    | fatal => exact error_iff.2 trivial

end AbortsWithin

/-! ### The shared operations: they return a status and no outputs, but for a failing Secure EPT walk -/

section
variable {rs : List Reg} {s : State}

@[simp] theorem lockOr_aborts (l : Locks) (id : LockId) (m : LockMode) (v d : Nat) :
    AbortsWithin rs (lockOr l id m v d) := .getOr (bad_within _ _ _)

@[simp] theorem lockOp_aborts (l : Locks) (id : LockId) (m : LockMode) (o : Nat) : AbortsWithin rs (lockOp l id m o) :=
  lockOr_aborts _ _ _ _ _

@[simp] theorem lockPage4k_aborts (l : Locks) (a : Nat) (m above : LockMode) (o : Nat) :
    AbortsWithin rs (lockPage4k l a m above o) :=
  .bind (by simp) fun _ => .bind (by simp) fun _ => by simp

@[simp] theorem lockPage_aborts (l : Locks) (a level : Nat) (m above : LockMode) (o : Nat) :
    AbortsWithin rs (lockPage l a level m above o) := by
  unfold lockPage
  split
  · simp
  · exact .bind (by simp) fun _ => by simp
  · simp

@[simp] theorem checkHpa_aborts (o : Nat) (pa : Word) (n : Nat) : AbortsWithin rs (checkHpa s o pa n) :=
  .bind (by simp) fun _ => .bind (by simp) fun _ => .bind (by simp) fun _ => .pure _

@[simp] theorem checkShared_aborts (o : Nat) (pa : Word) (n : Nat) : AbortsWithin rs (checkShared s o pa n) :=
  .bind (by simp) fun _ => .pure _

@[simp] theorem readShared_aborts (a n : Nat) : AbortsWithin rs (readShared s a n) := .bind (by simp) fun _ => .pure _

@[simp] theorem reqBacked_aborts (a n : Nat) : AbortsWithin rs (reqBacked s a n) := .req (by simp)

@[simp] theorem getTdr_aborts (a : Nat) : AbortsWithin rs (getTdr s a) := .bind (by simp) fun _ => by simp

@[simp] theorem getTdcs_aborts (a : Nat) (t : Tdr) : AbortsWithin rs (getTdcs s a t) := .bind (by simp) fun _ => by simp

@[simp] theorem getVp_aborts (a h : Nat) : AbortsWithin rs (getVp s a h) :=
  .bind (by simp) fun _ => .bind (by simp) fun _ => .pure _

@[simp] theorem takeFreePage_aborts (l : Locks) (o : Nat) (pa : Word) (level : Nat) :
    AbortsWithin rs (takeFreePage s l o pa level) :=
  .bind (by simp) fun _ => .bind (by simp) fun _ => .bind (by simp) fun _ => .bind (by simp) fun _ => .pure _

@[simp] theorem checkTdState_aborts (t : Tdr) : AbortsWithin rs (checkTdState t) :=
  .bind (by simp) fun _ => .bind (by simp) fun _ => by simp

@[simp] theorem checkTd_aborts (a o : Nat) : AbortsWithin rs (checkTd s a o) :=
  .bind (by simp) fun _ => .bind (by simp) fun _ => .bind (by simp) fun _ => .pure _

@[simp] theorem openTd_aborts (o : Nat) (pa : Word) (m : LockMode) : AbortsWithin rs (openTd s o pa m) :=
  .bind (by simp) fun _ => .bind (by simp) fun _ => .bind (by simp) fun _ => .bind (by simp) fun _ => .pure _

@[simp] theorem lockOwner_aborts (l : Locks) (v : Nat) (m : LockMode) : AbortsWithin rs (lockOwner s l v m) :=
  .bind (by simp) fun _ => .bind (by simp) fun _ => .bind (by simp) fun _ => .bind (by simp) fun _ => .pure _

@[simp] theorem mapInfo_aborts (o lmin lmax : Nat) (w : Word) : AbortsWithin rs (mapInfo o lmin lmax w) :=
  .bind (by simp) fun _ => .bind (by simp) fun _ => .bind (by simp) fun _ => .pure _

@[simp] theorem openMap_aborts (m : LockMode) (lmin lmax : Nat) : AbortsWithin rs (openMap s m lmin lmax) :=
  .bind (by simp) fun _ => .bind (by simp) fun _ => .bind (.req (by simp)) fun _ => .pure _

/-- A walk that fails returns the last entry in RCX and RDX (R261). -/
@[simp] theorem lockWalk_aborts (l : Locks) (td : Nat) (t : Tdr) (c : Tdcs) (gpa : Nat) (target : Option Nat)
    (m : LockMode) (h1 : .rcx ∈ rs) (h2 : .rdx ∈ rs) : AbortsWithin rs (lockWalk s l td t c gpa target m) := by
  have walk : AbortsWithin rs (walkOr s c t.hkid gpa target) := by
    unfold walkOr
    split <;> simp [septOuts, h1, h2]
  exact .bind (by simp) fun _ => .bind walk fun _ => .pure _

@[simp] theorem reqPamt_aborts (a : Nat) : AbortsWithin rs (reqPamt s a) := .req (by simp)

@[simp] theorem reqTracked_aborts (c : Tdcs) (a level : Nat) : AbortsWithin rs (reqTracked s c a level) :=
  .bind (by simp) fun _ => .req (by simp)

@[simp] theorem openChunk_aborts (h1 : .rcx ∈ rs) (h2 : .rdx ∈ rs) : AbortsWithin rs (openChunk s) :=
  .bind (by simp) fun _ => .bind (by simp) fun _ => .bind (by simp) fun _ => .bind (by simp) fun _ =>
    .bind (lockWalk_aborts _ _ _ _ _ _ _ h1 h2) fun _ => .bind (by simp) fun _ => .bind (by simp) fun _ => .pure _

@[simp] theorem readPage_aborts (h a : Nat) : AbortsWithin rs (readPage s h a) := .bind (by simp) fun _ => .pure _

@[simp] theorem copyPage_aborts (h old new : Nat) (b : Bool) : AbortsWithin rs (copyPage s h old new b) :=
  .ite (.bind (by simp) fun _ => .pure _) (.pure _)

@[simp] theorem lockTdr_aborts : AbortsWithin rs (lockTdr s) := .bind (by simp) fun _ => .bind (by simp) fun _ => .pure _

@[simp] theorem typedTdr_aborts (a o : Nat) : AbortsWithin rs (typedTdr s a o) := .bind (by simp) fun _ => by simp

@[simp] theorem configureKey_aborts (h : Nat) (w : Word) (o : KeyOwner) : AbortsWithin rs (configureKey s h w o) := by
  refine .bind (by simp) fun _ => .bind (by simp) fun _ => ?_
  split <;> exact .pure _

@[simp] theorem noVcpuAssociated_aborts (a : Nat) (t : Tdr) : AbortsWithin rs (noVcpuAssociated s a t) :=
  .ite (.bind (by simp) fun _ => .req (by simp)) (.ok _)

@[simp] theorem associate_aborts (a td : Nat) (v : Tdvps) (h : Nat) : AbortsWithin rs (associate s a td v h) :=
  .bind (by simp) fun _ => .bind (by simp) fun _ => .pure _

@[simp] theorem openVp_aborts : AbortsWithin rs (openVp s) :=
  .bind (by simp) fun _ => .bind (by simp) fun _ => .bind (by simp) fun _ => .bind (by simp) fun _ =>
    .bind (by simp) fun _ => .bind (by simp) fun _ => .bind (by simp) fun _ => .bind (by simp) fun _ => .pure _

@[simp] theorem lookupTdField_aborts (id : Word) : AbortsWithin rs (lookupTdField s id) := .getOr (by simp)

@[simp] theorem lookupVcpuField_aborts (c : Tdcs) (id : Word) : AbortsWithin rs (lookupVcpuField s c id) :=
  .getOr (by simp)

@[simp] theorem checkWrite_aborts (p : Platform) (c : Tdcs) (v : Tdvps) (x : Word) (r : WriteRule) :
    AbortsWithin rs (checkWrite p c v x r) := by
  cases r with
  | always => exact .ok _
  | pinbased => exact .bind (by simp) fun _ => .req (by simp)
  | _ => exact .req (by simp)

@[simp] theorem entryEnvironment_aborts (v : Tdvps) : AbortsWithin rs (entryEnvironment s v) :=
  .bind (by simp) fun _ => .bind (by simp) fun _ => .req (by simp)

@[simp] theorem zeroStepCheck_aborts (l : Locks) (td : Nat) (c : Tdcs) (v : Tdvps) (h : Nat) :
    AbortsWithin rs (zeroStepCheck s l td c v h) := by
  refine .ite (.bind (.ok _) fun _ => ?_) (.bind (by simp) fun _ => ?_) <;>
    exact .bind (by simp) fun _ => .req (by simp)

/-! ### The checks of module initialisation and of TDH.MNG.INIT -/

@[simp] theorem lockSys_aborts (m : LockMode) : AbortsWithin rs (lockSys s m) := lockOr_aborts _ _ _ _ _

@[simp] theorem notShutdown_aborts : AbortsWithin rs (notShutdown s) := .req (by simp)

@[simp] theorem checkPamtArea_aborts (p : Platform) (t : Tdmr) (i : Nat) (as : List (Nat × Nat × Nat)) :
    AbortsWithin rs (checkPamtArea p t i as) := by
  induction as with
  | nil => exact .ok _
  | cons a as ih => exact .bind (by simp) fun _ => ih

@[simp] theorem checkReserved_aborts (t : Tdmr) (i j last : Nat) (null : Bool) (as : List (Nat × Nat)) :
    AbortsWithin rs (checkReserved t i j last null as) := by
  induction as generalizing j last null with
  | nil => exact .ok _
  | cons a as ih => exact .bind (by simp) fun _ => .bind (by simp) fun _ => ih _ _ _

@[simp] theorem checkTdmr_aborts (i ptr n : Nat) : AbortsWithin rs (checkTdmr s i ptr n) :=
  .bind (by simp) fun _ => .bind (by simp) fun _ => .bind (by simp) fun _ => .bind (by simp) fun _ =>
    .bind (by simp) fun _ => .bind (by simp) fun _ => .pure _

@[simp] theorem checkTdmrs_aborts (i n : Nat) (ptrs : List Nat) : AbortsWithin rs (checkTdmrs s i n ptrs) := by
  induction ptrs generalizing i n with
  | nil => exact .ok _
  | cons p ptrs ih => exact .bind (by simp) fun _ => .bind (ih _ _) fun _ => .pure _

@[simp] theorem checkOverlaps_aborts (ts : List Tdmr) (as : List (Nat × Nat × Nat × Nat)) :
    AbortsWithin rs (checkOverlaps ts as) := by
  induction as with
  | nil => exact .ok _
  | cons a as ih =>
    unfold checkOverlaps
    split
    · simp
    · exact ih

@[simp] theorem checkCmrs_aborts (p : Platform) (i : Nat) (ts : List Tdmr) : AbortsWithin rs (checkCmrs p i ts) := by
  induction ts generalizing i with
  | nil => exact .ok _
  | cons t ts ih => exact .bind (by simp) fun _ => ih _

@[simp] theorem checkPamtCmrs_aborts (p : Platform) (as : List (Nat × Nat × Nat × Nat)) :
    AbortsWithin rs (checkPamtCmrs p as) := by
  induction as with
  | nil => exact .ok _
  | cons a as ih => exact .bind (by simp) fun _ => ih

/-- A platform check returns its extended words in the registers that it is given (R486, R488). -/
theorem outputsIn_checkOuts {regs : List Reg} (f : CheckFailure) (n : Nat) (h : regs ⊆ rs) :
    OutputsIn rs (checkOuts regs f n) := by
  unfold checkOuts
  split
  · exact fun e he => h (List.of_mem_zip he).1
  · exact outputsIn_nil rs

theorem platformCheckGlobal_aborts (h : [.rcx, .rdx, .r8, .r9, .r10] ⊆ rs) : AbortsWithin rs (platformCheckGlobal s) := by
  refine .bind (by simp) fun _ => .bind (by simp) fun _ => ?_
  split
  · exact .ok _
  · exact AbortsWithin.error_iff.2 (outputsIn_checkOuts _ _ h)

theorem platformCheckLp_aborts (h : [.rcx, .rdx, .r8] ⊆ rs) : AbortsWithin rs (platformCheckLp s) := by
  refine .bind (by simp) fun _ => .bind (by simp) fun _ => .bind (by simp) fun _ => ?_
  split
  · exact .ok _
  · exact AbortsWithin.error_iff.2 (outputsIn_checkOuts _ _ h)

/-- A CPUID configuration that is refused is named in RCX (R452). -/
theorem checkCpuidConfig_aborts (cs : List (CpuidConfig × CpuidRegs)) (h : .rcx ∈ rs) :
    AbortsWithin rs (checkCpuidConfig cs) := by
  induction cs with
  | nil => exact .ok _
  | cons c cs ih => exact .bind (by simp [h]) fun _ => ih

@[simp] theorem checkParams_aborts (p : TdParams) (h : .rcx ∈ rs) : AbortsWithin rs (checkParams s p) :=
  .bind (by simp) fun _ => .bind (by simp) fun _ => .bind (by simp) fun _ => .bind (by simp) fun _ =>
    .bind (by simp) fun _ => .bind (by simp) fun _ => .bind (by simp) fun _ =>
    .bind (checkCpuidConfig_aborts _ h) fun _ => .req (by simp)

end

end Sys2Proof.Machine
end

section
/-! PROOFS. Everything a host-side function can do, as far as the frames of R322, R325 and R326 speak of it (O50, O51): it
completes from a state in which it has kept the logical processors, or fails from the state that it was called in, or TDX
is disabled, or a guest is entered, or a TDH.MEM.WR pauses. -/

namespace Sys2Proof.Machine

open Safety

/-! ## What a host-side function can do -/

/-- The state from which a function that fails returns: the one it was called in, but for the two exceptions of R488 and
R512. -/
def FailsFrom (i : Instr) (s u : State) : Prop :=
  u = s ∨ (i = .tdhSysLpInit ∧ u = s.modLp fun l => { l with tlb := [] }) ∨
    (i = .tdhVpEnter ∧ ∃ m, m &&& ~~~entryXfam s = 0 ∧ u = s.modLp fun l => { l with ext := extInit m l.ext })

/-- What a host-side function can do, of all that the frames speak of: it completes, or fails, or TDX is disabled, or
TDH.VP.ENTER enters the guest, or TDH.MEM.WR pauses between its steps 8 and 9. -/
inductive HostResult (i : Instr) (s : State) : State → Prop where
  | completes {u : State} {v d : Nat} {outs : List (Reg × Word)} (kept : LpsKept 0 s u)
      (noError : i ≠ .tdhPhymemCacheWb → bit (statusWord v d) 63 = false) (within : OutputsIn (hostOutputs i) outs) :
      HostResult i s (hostReturn u v d outs)
  | fails {u : State} {v d : Nat} {outs : List (Reg × Word)} (from_ : FailsFrom i s u)
      (within : OutputsIn (hostOutputs i) outs) : HostResult i s (hostReturn u v d outs)
  | disabled {t : State} (h : t.seamDisabled = true) : HostResult i s t
  | enters {t : State} (h : i = .tdhVpEnter) (guest : t.lp.curVcpu ≠ none) : HostResult i s t
  | pauses {t : State} (h : i = .tdhMemWr) (run : t.lp.memWr ≠ none) : HostResult i s t

/-- The aborts and the answers of a host-side function, or of the rest of one. -/
structure Ends (i : Instr) (s : State) (r : Fn State) : Prop where
  aborts : AbortsWithin (hostOutputs i) r
  answers : Answers r (HostResult i s)

section
variable {i : Instr} {s : State}

theorem noError_success : bit (statusWord Status.success 0) 63 = false := by decide

theorem HostResult.succeeds {u : State} {outs : List (Reg × Word)} (h : LpsKept 0 s u)
    (ho : OutputsIn (hostOutputs i) outs) : HostResult i s (hostReturn u Status.success 0 outs) :=
  .completes h (fun _ => noError_success) ho

theorem ends_answer {t : State} (h : HostResult i s t) : Ends i s (pure t) := ⟨.pure t, answers_pure h⟩

/-- A function that succeeds without a change of a logical processor. -/
theorem ends_success {u : State} {outs : List (Reg × Word)} (h : u.lpView = s.lpView)
    (ho : OutputsIn (hostOutputs i) outs) :
    Ends i s (pure (hostReturn u Status.success 0 outs)) := ends_answer (.succeeds (.of_lpView h) ho)

theorem ends_bind {α : Type} {x : Fn α} {f : α → Fn State} (hx : AbortsWithin (hostOutputs i) x)
    (hf : ∀ a, x = .ok a → Ends i s (f a)) : Ends i s (x >>= f) := by
  cases x with
  | ok a => exact hf a rfl
  | error e => exact ⟨AbortsWithin.error_iff.2 (AbortsWithin.error_iff.1 hx), answers_error e _⟩

theorem ends_ite {c : Prop} [Decidable c] {x y : Fn State} (hx : Ends i s x) (hy : Ends i s y) :
    Ends i s (if c then x else y) := by
  split
  · exact hx
  · exact hy

theorem ends_withOuts {outs : List (Reg × Word)} {r : Fn State} (hr : Ends i s r)
    (ho : OutputsIn (hostOutputs i) outs) : Ends i s (withOuts outs r) :=
  ⟨.withOuts ho hr.aborts, answers_withOuts hr.answers⟩

/-- How SEAMCALL ends, for a function whose aborts return from `u`. -/
theorem finishHost_result {u : State} {r : Fn State} (hu : FailsFrom i s u) (hr : Ends i s r) :
    HostResult i s (finishHost u r) := by
  cases r with
  | ok t => exact hr.answers t rfl
  | error e =>
    have within := AbortsWithin.error_iff.1 hr.aborts
    cases e with
    | status v d outs => exact .fails hu within
    | unbreakable => exact .disabled (unbreakableShutdown_seamDisabled u)
    | fatal => exact .disabled rfl

end

/-! ### TDH.MEM.* -/

section
variable (s : State)

theorem memPageAdd_ends : Ends .tdhMemPageAdd s (memPageAdd s) := by
  unfold memPageAdd
  repeat refine ends_bind (by simp [hostOutputs]) fun _ _ => ?_
  exact ends_success (by simp) (by simp [hostOutputs])

theorem memPageAug_ends : Ends .tdhMemPageAug s (memPageAug s) := by
  unfold memPageAug
  repeat refine ends_bind (by simp [hostOutputs]) fun _ _ => ?_
  exact ends_success (by simp) (by simp [hostOutputs])

theorem memPageDemote_ends : Ends .tdhMemPageDemote s (memPageDemote s) := by
  unfold memPageDemote
  repeat refine ends_bind (by simp [hostOutputs]) fun _ _ => ?_
  exact ends_success (by simp) (by simp [hostOutputs])

theorem memPagePromote_ends : Ends .tdhMemPagePromote s (memPagePromote s) := by
  unfold memPagePromote
  repeat refine ends_bind (by simp [hostOutputs]) fun _ _ => ?_
  exact ends_success (by simp) (by simp [hostOutputs])

/-- The copy of a page's content is an update of memory. -/
theorem copyPage_lpView (hkid old new : Nat) (copied : Bool) :
    Answers (copyPage s hkid old new copied) fun u => u.lpView = s.lpView :=
  answers_ite (fun _ => answers_bind fun _ _ => answers_pure (writeDirect_lpView s _ _ _)) fun _ => answers_pure rfl

theorem memPageRelocate_ends : Ends .tdhMemPageRelocate s (memPageRelocate s) := by
  unfold memPageRelocate
  iterate 7 refine ends_bind (by simp [hostOutputs]) fun _ _ => ?_
  refine ends_bind (by simp) fun u hu => ?_
  have copied : u.lpView = s.lpView := copyPage_lpView s _ _ _ _ u hu
  exact ends_success (by simp [copied]) (by simp [hostOutputs])

theorem memPageRemove_ends : Ends .tdhMemPageRemove s (memPageRemove s) := by
  unfold memPageRemove
  repeat refine ends_bind (by simp [hostOutputs]) fun _ _ => ?_
  exact ends_success (by simp) (by simp [hostOutputs])

theorem memRangeBlock_ends : Ends .tdhMemRangeBlock s (memRangeBlock s) := by
  unfold memRangeBlock
  repeat refine ends_bind (by simp [hostOutputs]) fun _ _ => ?_
  exact ends_success (by simp) (by simp [hostOutputs])

theorem memRangeUnblock_ends : Ends .tdhMemRangeUnblock s (memRangeUnblock s) := by
  unfold memRangeUnblock
  repeat refine ends_bind (by simp [hostOutputs]) fun _ _ => ?_
  exact ends_success (by simp) (by simp [hostOutputs])

theorem memRd_ends : Ends .tdhMemRd s (memRd s) := by
  unfold memRd
  repeat refine ends_bind (by simp [hostOutputs]) fun _ _ => ?_
  exact ends_success rfl (by simp [hostOutputs])

/-- TDH.MEM.WR does all of its work, or pauses before its step 9. -/
theorem memWr_ends (hc : s.curLp < s.lps.length) : Ends .tdhMemWr s (memWr s) := by
  unfold memWr
  refine ends_bind (by simp [hostOutputs]) fun ⟨l, r⟩ _ => ends_answer ?_
  split
  · refine .pauses rfl ?_
    rw [modLp_lp_of (s := s) _ hc ?_ ?_]
    · nofun
    · rfl
    · rfl
  · exact .succeeds (.of_lpView (writeCached_lpView _ _ _ _)) (by simp [hostOutputs])

theorem memSeptAdd_ends : Ends .tdhMemSeptAdd s (memSeptAdd s) := by
  unfold memSeptAdd
  repeat refine ends_bind (by simp [hostOutputs]) fun _ _ => ?_
  exact ends_success (by simp) (by simp [hostOutputs])

theorem memSeptRd_ends : Ends .tdhMemSeptRd s (memSeptRd s) := by
  unfold memSeptRd
  repeat refine ends_bind (by simp [hostOutputs]) fun _ _ => ?_
  exact ends_success rfl (by simp [hostOutputs])

theorem memSeptRemove_ends : Ends .tdhMemSeptRemove s (memSeptRemove s) := by
  unfold memSeptRemove
  repeat refine ends_bind (by simp [hostOutputs]) fun _ _ => ?_
  exact ends_success (by simp) (by simp [hostOutputs])

theorem memTrack_ends : Ends .tdhMemTrack s (memTrack s) := by
  unfold memTrack
  repeat refine ends_bind (by simp) fun _ _ => ?_
  exact ends_success (by simp) (outputsIn_nil _)

/-! ### TDH.PHYMEM.* -/

theorem cacheWbRun_result (scope : Nat) (set : List Nat) :
    HostResult .tdhPhymemCacheWb s (cacheWbRun s scope set) := by
  unfold cacheWbRun
  split
  · exact .completes (.of_lpView (by simp)) (absurd rfl) (outputsIn_nil _)
  · exact .completes (.of_lpView (by simp)) (absurd rfl) (outputsIn_nil _)

theorem phymemCacheWb_ends : Ends .tdhPhymemCacheWb s (phymemCacheWb s) := by
  unfold phymemCacheWb
  iterate 3 refine ends_bind (by simp) fun _ _ => ?_
  refine ends_ite (ends_ite ?_ ?_) (ends_bind (by simp) fun _ _ => ?_)
  · exact ends_answer (.completes (.of_lpView (by simp)) (absurd rfl) (outputsIn_nil _))
  · exact ends_answer (cacheWbRun_result s _ _)
  · exact ends_answer (cacheWbRun_result s _ _)

theorem phymemPageRdmd_ends : Ends .tdhPhymemPageRdmd s (phymemPageRdmd s) := by
  unfold phymemPageRdmd
  repeat refine ends_bind (by simp) fun _ _ => ?_
  exact ends_success rfl (by simp [hostOutputs])

theorem reclaimChild_ends (l : Locks) (a level : Nat) (e : PamtEntry) :
    Ends .tdhPhymemPageReclaim s (reclaimChild s l a level e) := by
  unfold reclaimChild
  repeat refine ends_bind (by simp [outputsIn_reclaimOuts]) fun _ _ => ?_
  exact ends_success (by simp) (outputsIn_reclaimOuts _ _)

theorem reclaimTdr_ends (a : Nat) (e : PamtEntry) : Ends .tdhPhymemPageReclaim s (reclaimTdr s a e) := by
  unfold reclaimTdr
  repeat refine ends_bind (by simp [outputsIn_reclaimOuts]) fun _ _ => ?_
  exact ends_success (by simp) (outputsIn_reclaimOuts _ _)

theorem phymemPageReclaim_ends : Ends .tdhPhymemPageReclaim s (phymemPageReclaim s) := by
  unfold phymemPageReclaim
  repeat refine ends_bind (by simp [outputsIn_reclaimOuts]) fun _ _ => ?_
  exact ends_ite (reclaimTdr_ends s _ _) (reclaimChild_ends s _ _ _ _)

theorem phymemPageWbinvd_ends : Ends .tdhPhymemPageWbinvd s (phymemPageWbinvd s) := by
  unfold phymemPageWbinvd
  repeat refine ends_bind (by simp) fun _ _ => ?_
  exact ends_success (by simp) (outputsIn_nil _)

/-! ### TDH.MNG.* and TDH.MR.* -/

theorem mngAddcx_ends : Ends .tdhMngAddcx s (mngAddcx s) := by
  unfold mngAddcx
  repeat refine ends_bind (by simp) fun _ _ => ?_
  exact ends_success (by simp) (outputsIn_nil _)

theorem mngCreate_ends : Ends .tdhMngCreate s (mngCreate s) := by
  unfold mngCreate
  repeat refine ends_bind (by simp) fun _ _ => ?_
  exact ends_success ((State.assignPage_lpView _ _ _ _ _).trans rfl) (outputsIn_nil _)

theorem mngInit_ends : Ends .tdhMngInit s (mngInit s) := by
  unfold mngInit
  repeat refine ends_bind (by simp [hostOutputs]) fun _ _ => ?_
  exact ends_success rfl (by simp [hostOutputs])

theorem configureKey_lpView (hkid : Nat) (done : Word) (owner : KeyOwner) :
    Answers (configureKey s hkid done owner) fun u => u.lpView = s.lpView := by
  intro u hu
  obtain ⟨_, _, rfl⟩ := configureKey_answers s _ _ _ u hu
  rfl

theorem mngKeyConfig_ends : Ends .tdhMngKeyConfig s (mngKeyConfig s) := by
  unfold mngKeyConfig
  iterate 5 refine ends_bind (by simp) fun _ _ => ?_
  refine ends_bind (by simp) fun u hu => ?_
  have keyed : u.lpView = s.lpView := configureKey_lpView s _ _ _ u hu
  exact ends_success keyed (outputsIn_nil _)

theorem mngKeyFreeid_ends : Ends .tdhMngKeyFreeid s (mngKeyFreeid s) := by
  unfold mngKeyFreeid
  repeat refine ends_bind (by simp) fun _ _ => ?_
  exact ends_success (by simp) (outputsIn_nil _)

theorem mngVpflushdone_ends : Ends .tdhMngVpflushdone s (mngVpflushdone s) := by
  unfold mngVpflushdone
  repeat refine ends_bind (by simp) fun _ _ => ?_
  exact ends_success (by simp) (outputsIn_nil _)

theorem mngRd_ends : Ends .tdhMngRd s (mngRd s) := by
  unfold mngRd
  repeat refine ends_bind (by simp) fun _ _ => ?_
  exact ends_success rfl (by simp [hostOutputs])

theorem mngWr_ends : Ends .tdhMngWr s (mngWr s) := by
  unfold mngWr
  repeat refine ends_bind (by simp) fun _ _ => ?_
  exact ends_success (by simp) (by simp [hostOutputs])

theorem mrExtend_ends : Ends .tdhMrExtend s (mrExtend s) := by
  unfold mrExtend
  repeat refine ends_bind (by simp [hostOutputs]) fun _ _ => ?_
  exact ends_success (by simp) (by simp [hostOutputs])

theorem mrFinalize_ends : Ends .tdhMrFinalize s (mrFinalize s) := by
  unfold mrFinalize
  repeat refine ends_bind (by simp) fun _ _ => ?_
  exact ends_success (by simp) (outputsIn_nil _)

theorem mngKeyReclaimid_ends : Ends .tdhMngKeyReclaimid s (mngKeyReclaimid s) := ends_success rfl (outputsIn_nil _)

/-! ### TDH.VP.*, but TDH.VP.ENTER -/

theorem vpAddcx_ends : Ends .tdhVpAddcx s (vpAddcx s) := by
  unfold vpAddcx
  repeat refine ends_bind (by simp) fun _ _ => ?_
  exact ends_success (by simp) (outputsIn_nil _)

theorem vpCreate_ends : Ends .tdhVpCreate s (vpCreate s) := by
  unfold vpCreate
  repeat refine ends_bind (by simp) fun _ _ => ?_
  exact ends_success ((State.assignPage_lpView _ _ _ _ _).trans rfl) (outputsIn_nil _)

theorem vpInit_ends : Ends .tdhVpInit s (vpInit s) := by
  unfold vpInit
  repeat refine ends_bind (by simp) fun _ _ => ?_
  exact ends_success (by simp) (outputsIn_nil _)

theorem vpFlush_ends (hc : s.curLp < s.lps.length) : Ends .tdhVpFlush s (vpFlush s) := by
  unfold vpFlush
  iterate 8 refine ends_bind (by simp) fun _ _ => ?_
  refine ends_bind (by simp) fun c _ => ?_
  have flushed : LpsKept 0 s (s.modLp fun l => l.flushTd c.rootPage) := (LpsKept.refl s).modLp hc rfl
  exact ends_answer (.succeeds (flushed.congr rfl) (outputsIn_nil _))

/-- An association changes the VCPU and its TD (R517). -/
theorem associate_answers (a td : Nat) (v : Tdvps) (hkid : Nat) :
    Answers (associate s a td v hkid) fun u =>
      ∃ f, u = (s.modVp a fun p => p.associated s.plat s.curLp hkid).modTdcs td f := by
  unfold associate
  repeat refine answers_bind fun _ _ => ?_
  exact answers_pure ⟨_, rfl⟩

theorem associate_lpView (a td : Nat) (v : Tdvps) (hkid : Nat) :
    Answers (associate s a td v hkid) fun u => u.lpView = s.lpView := by
  intro u hu
  obtain ⟨_, rfl⟩ := associate_answers s _ _ _ _ u hu
  rfl

theorem vpRd_ends : Ends .tdhVpRd s (vpRd s) := by
  unfold vpRd
  iterate 3 refine ends_bind (by simp) fun _ _ => ?_
  refine ends_bind (by simp) fun u hu => ?_
  have associated : u.lpView = s.lpView := associate_lpView s _ _ _ _ u hu
  exact ends_success associated (by simp [hostOutputs])

theorem vpWr_ends : Ends .tdhVpWr s (vpWr s) := by
  unfold vpWr
  iterate 3 refine ends_bind (by simp) fun _ _ => ?_
  refine ends_bind (by simp) fun u hu => ?_
  have associated : u.lpView = s.lpView := associate_lpView s _ _ _ _ u hu
  repeat refine ends_bind (by simp) fun _ _ => ?_
  exact ends_success associated (by simp [hostOutputs])

/-! ### TDH.SYS.* -/

theorem sysConfig_ends : Ends .tdhSysConfig s (sysConfig s) := by
  unfold sysConfig
  repeat refine ends_bind (by simp) fun _ _ => ?_
  exact ends_success rfl (outputsIn_nil _)

theorem sysInfo_ends : Ends .tdhSysInfo s (sysInfo s) := by
  unfold sysInfo
  repeat refine ends_bind (by simp) fun _ _ => ?_
  exact ends_success (by simp) (by simp [hostOutputs])

/-- TDH.SYS.INIT clears LP_INIT_DONE everywhere (R486). -/
theorem initDone_cleared {u : State} (hp : u.plat = s.plat) (hc : u.curLp = s.curLp)
    (hl : u.lps = s.lps.map fun l => { l with initDone := false }) : LpsKept 0 s u := by
  have at_ (j : Nat) : u.lpAt j = { s.lpAt j with initDone := false } := by
    rw [State.lpAt, hl]
    exact List.getD_map (n := j) s.lps Lp.reset fun l : Lp => { l with initDone := false }
  refine ⟨hp, hc, by simp [hl], ?_, fun j _ => by rw [at_]⟩
  rw [State.lp, hc, at_, extInit_zero]
  rfl

theorem sysInit_ends : Ends .tdhSysInit s (sysInit s) := by
  unfold sysInit
  iterate 4 refine ends_bind (by simp) fun _ _ => ?_
  refine ends_bind (platformCheckGlobal_aborts (List.Subset.refl _)) fun _ _ => ?_
  exact ends_answer (.succeeds (initDone_cleared s rfl rfl rfl) outputsIn_sysInitOuts)

theorem sysKeyConfig_ends : Ends .tdhSysKeyConfig s (sysKeyConfig s) := by
  unfold sysKeyConfig
  iterate 4 refine ends_bind (by simp) fun _ _ => ?_
  refine ends_bind (by simp) fun u hu => ?_
  have keyed : u.lpView = s.lpView := configureKey_lpView s _ _ _ u hu
  exact ends_success keyed (outputsIn_nil _)

/-- TDH.SYS.LP.INIT: a failing platform check returns after the INVEPT (R488). -/
theorem sysLpInit_ends (hc : s.curLp < s.lps.length) : Ends .tdhSysLpInit s (sysLpInit s) := by
  unfold sysLpInit
  iterate 4 refine ends_bind (by simp) fun _ _ => ?_
  have checked : AbortsWithin (hostOutputs .tdhSysLpInit) (platformCheckLp s) :=
    platformCheckLp_aborts (List.Subset.refl _)
  dsimp only
  split
  · exact ends_answer (.succeeds (((LpsKept.refl s).modLp hc rfl).modLp hc rfl) (by simp [hostOutputs]))
  · rename_i a ha
    exact ends_answer (finishHost_result (.inr (.inl ⟨rfl, rfl⟩))
      (ends_withOuts ⟨AbortsWithin.error_iff.2 (checked a ha), answers_error a _⟩ (by simp [hostOutputs])))

theorem sysLpShutdown_ends (hc : s.curLp < s.lps.length) : Ends .tdhSysLpShutdown s (sysLpShutdown s) := by
  unfold sysLpShutdown
  refine ends_bind (by simp) fun _ _ => ends_answer (.succeeds (.modLp ?_ hc rfl) (outputsIn_nil _))
  exact .of_lpView (setShutdown_lpView s)

theorem sysTdmrInit_ends : Ends .tdhSysTdmrInit s (sysTdmrInit s) := by
  unfold sysTdmrInit
  repeat refine ends_bind (by simp) fun _ _ => ?_
  exact ends_success ((setTdmrs_lpView _ _).trans (initPamt_lpView s _ _ _)) (by simp [hostOutputs])

end

/-! ### TDH.VP.ENTER -/

section
variable (s : State)

theorem checkHpa_answers (o : Nat) (pa : Word) (n : Nat) : Answers (checkHpa s o pa n) fun a => a = pa.toNat := by
  unfold checkHpa
  repeat refine answers_bind fun _ _ => ?_
  exact answers_pure rfl

theorem lockOwner_answers (l : Locks) (v : Nat) (m : LockMode) :
    Answers (lockOwner s l v m) fun r => r.2.1 = s.ownerOf v := by
  unfold lockOwner
  repeat refine answers_bind fun _ _ => ?_
  exact answers_pure rfl

theorem getTdcs_answers (a : Nat) (t : Tdr) : Answers (getTdcs s a t) fun c => tblGet s.tdcss a = some c :=
  answers_bind fun _ _ _ hc => getOr_eq_ok.1 hc

theorem getVp_answers (a h : Nat) : Answers (getVp s a h) fun p => tblGet s.vps a = some p :=
  answers_bind fun _ hp => answers_bind fun _ _ => answers_pure (getOr_eq_ok.1 hp)

end

/-- An association rewrites the fields of the TD VMCS that carry the HKID, and no other (R517, R184). -/
theorem associated_vm (v : Tdvps) {p : Platform} (lp hkid : Nat) {j : Nat}
    (hj : j ∉ [Vmcs.virtualApic, Vmcs.msrBitmap, Vmcs.veInfo]) (hk : HkidFieldApart p j) :
    (v.associated p lp hkid).vm j = v.vm j := by
  have rekeyed (w : Tdvps) : (w.rekey p hkid).vm j = w.vm j := by
    have hset : (w.setVms [(Vmcs.virtualApic, Machine.rekey p (w.vm Vmcs.virtualApic) hkid),
        (Vmcs.msrBitmap, Machine.rekey p (w.vm Vmcs.msrBitmap) hkid),
        (Vmcs.veInfo, Machine.rekey p (w.vm Vmcs.veInfo) hkid)]).vm j = w.vm j :=
      setVms_vm_of_notMem _ _ _ (by
        rintro e he rfl
        exact hj (List.mem_map_of_mem (f := Prod.fst) he))
    unfold Tdvps.rekey
    dsimp only
    split
    · rename_i e he
      rw [setVm_vm, if_neg fun h : e = j => hk (h ▸ he), hset]
    · exact hset
  unfold Tdvps.associated
  extract_lets taken
  have same : taken.vm j = v.vm j := by
    unfold taken
    split <;> rfl
  split
  · exact same
  · exact (rekeyed _).trans same

theorem enter_vm (v : Tdvps) (epoch : Word) (l : Lp) (j : Nat) : (v.enter epoch l).vm j = v.vm j := by
  unfold Tdvps.enter
  dsimp only
  split <;> rfl

/-- Where there is nothing to deliver, the VM entry delivers nothing. -/
theorem entryEvents_nothing {s : State} {v : Nat} {q : Tdvps} (h : tblGet s.vps v = some q) (hr : q.reattempts = false)
    (hd : q.hasPendingDebug = false) : entryEvents s v = s := by
  simp [entryEvents, deliverPendingDebug, h, hr, hd]

/-- TDH.VP.ENTER gives the VCPU nothing to deliver that it had not before. -/
theorem entered_nothingToDeliver {s : State} {p : Tdvps} (h : NothingToDeliver s p) (hkid : Nat) (epoch : Word) (l : Lp) :
    (((p.associated s.plat s.curLp hkid).enter epoch l).entering).reattempts = false ∧
      (((p.associated s.plat s.curLp hkid).enter epoch l).entering).hasPendingDebug = false := by
  obtain ⟨hpending, hbroken, ka, kb, kc⟩ := h
  have vm (j : Nat) (h1 : j ∉ [Vmcs.virtualApic, Vmcs.msrBitmap, Vmcs.veInfo]) (h2 : j ≠ Vmcs.procbased)
      (h3 : HkidFieldApart s.plat j) :
      (((p.associated s.plat s.curLp hkid).enter epoch l).entering).vm j = p.vm j := by
    rw [entering_vm _ _ h2, enter_vm, associated_vm p _ _ h1 h3]
  constructor
  · rw [Tdvps.reattempts, vm _ (by decide) (by decide) kb, vm _ (by decide) (by decide) kc]
    exact hbroken
  · rw [Tdvps.hasPendingDebug, vm _ (by decide) (by decide) ka]
    exact hpending

/-- TDH.VP.ENTER of a VCPU that the CPU lets enter, with nothing to deliver, leaves the guest running. -/
theorem vpEnter_ends {s : State} (hc : s.curLp < s.lps.length)
    (plain : ∀ p, tblGet s.vps (s.hreg .rcx).toNat = some p → EntersPlainly s (s.hreg .rcx).toNat p) :
    Ends .tdhVpEnter s (vpEnter s) := by
  unfold vpEnter
  refine ends_bind (by simp) fun v hv => ?_
  iterate 2 refine ends_bind (by simp) fun _ _ => ?_
  refine ends_bind (by simp) fun ⟨l, td, t⟩ htd => ends_bind (by simp) fun _ _ => ?_
  refine ends_bind (by simp) fun c hct => ends_bind (by simp) fun _ _ => ends_bind (by simp) fun p hp => ?_
  iterate 2 refine ends_bind (by simp) fun _ _ => ?_
  refine ends_bind (by simp) fun u hu => ?_
  repeat refine ends_bind (by simp) fun _ _ => ?_
  obtain rfl : v = _ := checkHpa_answers s _ _ _ v hv
  obtain rfl : td = s.ownerOf _ := lockOwner_answers s _ _ _ _ htd
  have hvcpu : tblGet s.vps (s.hreg .rcx).toNat = some p := getVp_answers s _ _ p hp
  have htdcs := getTdcs_answers s _ _ c hct
  obtain ⟨deliver, accepted⟩ := plain p hvcpu
  have norefusal : entryRefusal c p = none := by simpa [EntryAccepted, htdcs] using accepted
  obtain ⟨_, rfl⟩ := associate_answers s _ _ _ _ u hu
  obtain ⟨hr, hd⟩ := entered_nothingToDeliver deliver t.hkid c.tdEpoch s.lp
  have entered := modVp_get (fun p => (p.enter c.tdEpoch s.lp).entering)
    (modVp_get (fun p => p.associated s.plat s.curLp t.hkid) hvcpu)
  refine ends_answer (.enters rfl ?_)
  rw [enterGuest_accepted norefusal, entryEvents_nothing ?_ hr hd, modLp_lp_of (s := s) _ hc ?_ ?_]
  · nofun
  · simp
  · simp
  · exact entered

/-- A TDH.VP.ENTER that fails may have cleared extended state of components in the TD's XFAM (R512). -/
theorem entryAnswer_ends {s : State} {r : Fn State} (hr : Ends .tdhVpEnter s r) :
    Ends .tdhVpEnter s (entryAnswer s r) := by
  cases r with
  | ok t => exact hr
  | error e =>
    cases e with
    | status v d outs =>
      have cleared : FailsFrom .tdhVpEnter s (s.modLp fun l => { l with ext := extAfterFailure s l.ext }) :=
        .inr (.inr ⟨rfl, _, and_andNot_self _ _, rfl⟩)
      exact ⟨.ok _, answers_ok (.fails cleared (AbortsWithin.error_iff.1 hr.aborts))⟩
    | unbreakable => exact hr
    | fatal => exact hr

/-! ### Every host-side function -/

theorem hostBody_ends {s : State} {i : Instr} (hi : i.side = .seamcall) (hc : s.curLp < s.lps.length)
    (plain : i = .tdhVpEnter →
      ∀ p, tblGet s.vps (s.hreg .rcx).toNat = some p → EntersPlainly s (s.hreg .rcx).toNat p) :
    Ends i s (hostBody i s) := by
  cases i with
  | tdhVpEnter => exact entryAnswer_ends (vpEnter_ends hc (plain rfl))
  | tdhMngAddcx => exact mngAddcx_ends s
  | tdhMemPageAdd => exact ends_withOuts (memPageAdd_ends s) (by simp [hostOutputs])
  | tdhMemSeptAdd => exact ends_withOuts (memSeptAdd_ends s) (by simp [hostOutputs])
  | tdhVpAddcx => exact vpAddcx_ends s
  | tdhMemPageRelocate => exact ends_withOuts (memPageRelocate_ends s) (by simp [hostOutputs])
  | tdhMemPageAug => exact ends_withOuts (memPageAug_ends s) (by simp [hostOutputs])
  | tdhMemRangeBlock => exact ends_withOuts (memRangeBlock_ends s) (by simp [hostOutputs])
  | tdhMngKeyConfig => exact mngKeyConfig_ends s
  | tdhMngCreate => exact mngCreate_ends s
  | tdhVpCreate => exact vpCreate_ends s
  | tdhMngRd => exact ends_withOuts (mngRd_ends s) (by simp [hostOutputs])
  | tdhMemRd => exact ends_withOuts (memRd_ends s) (by simp [hostOutputs])
  | tdhMngWr => exact ends_withOuts (mngWr_ends s) (by simp [hostOutputs])
  | tdhMemWr => exact ends_withOuts (memWr_ends s hc) (by simp [hostOutputs])
  | tdhMemPageDemote => exact ends_withOuts (memPageDemote_ends s) (by simp [hostOutputs])
  | tdhMrExtend => exact ends_withOuts (mrExtend_ends s) (by simp [hostOutputs])
  | tdhMrFinalize => exact mrFinalize_ends s
  | tdhVpFlush => exact vpFlush_ends s hc
  | tdhMngVpflushdone => exact mngVpflushdone_ends s
  | tdhMngKeyFreeid => exact mngKeyFreeid_ends s
  | tdhMngInit => exact ends_withOuts (mngInit_ends s) (by simp [hostOutputs])
  | tdhVpInit => exact vpInit_ends s
  | tdhMemPagePromote => exact ends_withOuts (memPagePromote_ends s) (by simp [hostOutputs])
  | tdhPhymemPageRdmd => exact ends_withOuts (phymemPageRdmd_ends s) outputsIn_pageOuts
  | tdhMemSeptRd => exact ends_withOuts (memSeptRd_ends s) (by simp [hostOutputs])
  | tdhVpRd => exact ends_withOuts (vpRd_ends s) (by simp [hostOutputs])
  | tdhMngKeyReclaimid => exact mngKeyReclaimid_ends s
  | tdhPhymemPageReclaim => exact ends_withOuts (phymemPageReclaim_ends s) outputsIn_pageOuts
  | tdhMemPageRemove => exact ends_withOuts (memPageRemove_ends s) (by simp [hostOutputs])
  | tdhMemSeptRemove => exact ends_withOuts (memSeptRemove_ends s) (by simp [hostOutputs])
  | tdhSysKeyConfig => exact sysKeyConfig_ends s
  | tdhSysInfo => exact ends_withOuts (sysInfo_ends s) (by simp [hostOutputs])
  | tdhSysInit => exact ends_withOuts (sysInit_ends s) outputsIn_sysInitOuts
  | tdhSysLpInit => exact ends_withOuts (sysLpInit_ends s hc) (by simp [hostOutputs])
  | tdhSysTdmrInit => exact ends_withOuts (sysTdmrInit_ends s) (by simp [hostOutputs])
  | tdhMemTrack => exact memTrack_ends s
  | tdhMemRangeUnblock => exact ends_withOuts (memRangeUnblock_ends s) (by simp [hostOutputs])
  | tdhPhymemCacheWb => exact phymemCacheWb_ends s
  | tdhPhymemPageWbinvd => exact phymemPageWbinvd_ends s
  | tdhVpWr => exact ends_withOuts (vpWr_ends s) (by simp [hostOutputs])
  | tdhSysLpShutdown => exact sysLpShutdown_ends s hc
  | tdhSysConfig => exact sysConfig_ends s
  | _ => cases hi

/-- Everything a SEAMCALL that reaches the module can do. -/
theorem exec_hostResult {i : Instr} {s t : State} (hi : i.side = .seamcall) (h : HostCalls s)
    (hw : i = .tdhMemWr → s.lp.memWr = none)
    (plain : i = .tdhVpEnter →
      ∀ p, tblGet s.vps (s.hreg .rcx).toNat = some p → EntersPlainly s (s.hreg .rcx).toNat p)
    (he : exec i s = .next t) : HostResult i s t := by
  rw [exec_host i hi s hw] at he
  by_cases hr : sysLeaf i = true ∨ s.sysState = .sysReady
  · rw [hostCall_reaches h hr] at he
    cases he
    exact finishHost_result (.inl rfl) (hostBody_ends hi h.1 plain)
  · obtain ⟨hl, hs⟩ := not_or.1 hr
    rw [Bool.not_eq_true] at hl
    rw [hl, hostCall_notReady _ h hs] at he
    cases he
    exact .fails (.inl rfl) (outputsIn_nil _)

theorem FailsFrom.kept {i : Instr} {s u : State} (h : FailsFrom i s u) (hc : s.curLp < s.lps.length) :
    ∃ m, m &&& ~~~entryXfam s = 0 ∧ (i ≠ .tdhVpEnter → m = 0) ∧ LpsKept m s u := by
  rcases h with rfl | ⟨rfl, rfl⟩ | ⟨rfl, m, hm, rfl⟩
  · exact ⟨0, BitVec.zero_and, fun _ => rfl, .refl _⟩
  · exact ⟨0, BitVec.zero_and, fun _ => rfl, (LpsKept.refl s).modLp hc rfl⟩
  · exact ⟨m, hm, absurd rfl, .clearExt m hc⟩

/-- Where TDX stays enabled, no guest is entered and no TDH.MEM.WR pauses, the function has returned. -/
theorem HostResult.returned {i : Instr} {s t : State} (h : HostResult i s t) (hc : s.curLp < s.lps.length)
    (enabled : t.seamDisabled = false) (root : t.lp.curVcpu = none) (whole : i = .tdhMemWr → t.lp.memWr = none) :
    ∃ m u v d outs, t = hostReturn u v d outs ∧ m &&& ~~~entryXfam s = 0 ∧ (i ≠ .tdhVpEnter → m = 0) ∧
      LpsKept m s u ∧ OutputsIn (hostOutputs i) outs := by
  cases h with
  | completes kept _ within => exact ⟨0, _, _, _, _, rfl, BitVec.zero_and, fun _ => rfl, kept, within⟩
  | fails from_ within =>
    obtain ⟨m, hm, h0, kept⟩ := from_.kept hc
    exact ⟨m, _, _, _, _, rfl, hm, h0, kept, within⟩
  | disabled h => simp [h] at enabled
  | enters _ guest => exact absurd root guest
  | pauses h run => exact absurd (whole h) run

/-! ## The obligations -/

/-- Settles O50: SEAMRET writes RAX, RIP and the outputs, and the state it returns from has kept the rest. -/
theorem hostRegisterFrame : Obligations.HostRegisterFrame := by
  intro i s t hi h he enabled root plain atOnce
  have result := exec_hostResult hi h (fun e => (atOnce e).1) plain he
  obtain ⟨m, u, v, d, outs, rfl, hm, h0, kept, within⟩ :=
    result.returned h.1 enabled root fun e => (atOnce e).2
  have lp := kept.hostReturn_lp h.1 v d outs
  have others : ∀ j, j ≠ s.curLp → (hostReturn u v d outs).lpAt j =
      { s.lpAt j with initDone := ((hostReturn u v d outs).lpAt j).initDone } := fun j hj => by
    rw [hostReturn, modLp_lpAt_other _ (by rw [kept.curLp]; exact hj)]
    exact kept.others j hj
  rw [lp]
  refine ⟨kept.curLp, (modLp_lps_length _ _).trans kept.length, rfl, fun r hr ho => ?_, rfl, rfl, rfl, rfl, rfl, rfl, rfl,
    rfl, rfl, rfl, rfl, rfl, rfl, rfl, rfl, rfl, rfl, rfl, rfl, rfl, rfl, rfl, rfl, rfl, rfl, fun hne => ?_,
    fun _ => ⟨m, hm, rfl⟩, others⟩
  · show ((s.lp.gprs.setAll outs).set .rax _).get r = _
    rw [Gprs.get_set, if_neg (Ne.symm hr), Gprs.get_setAll within ho]
  · show extInit m s.lp.ext = _
    rw [h0 hne, extInit_zero]

/-- Settles O51: a completion has no error status, and an abort returns from the state that the function was called in. -/
theorem hostErrorChangesNothing : Obligations.HostErrorChangesNothing := by
  intro i s t hi hne h he enabled root error plain atOnce
  have result := exec_hostResult hi h (fun e => (atOnce e).1) plain he
  cases result with
  | @completes u v d outs kept noError _ =>
    have rax : (hostReturn u v d outs).lp.gprs.rax = statusWord v d := by rw [kept.hostReturn_lp h.1]; rfl
    rw [rax, noError hne] at error
    cases error
  | fails from_ within => exact ⟨_, _, _, _, rfl, within, from_⟩
  | disabled hd => simp [hd] at enabled
  | enters _ guest => exact absurd root guest
  | pauses hm run => exact absurd (atOnce hm).2 run

end Sys2Proof.Machine
end

section
/-! PROOFS. TDH.MEM.RD and TDH.MEM.WR on a chunk of a debuggable TD's memory (O25; 40_seamcall_mem.md rules R428 and
R433): what each of them answers once the chunk has been opened, and the rest of a TDH.MEM.WR that other agents' steps
came into. -/

namespace Sys2Proof.Machine

open Safety

/-! ## From the opened chunk to the end of the function -/

section
variable {s : State} {l : Locks} {r : MemWrRun}

/-- TDH.MEM.RD returns what the opening has read. -/
theorem exec_memRd_opened (h : HostReady s) (opened : openChunk s = .ok (l, r)) :
    exec .tdhMemRd s = .next (hostReturn s Status.success 0 [(.rcx, 0), (.rdx, 0), (.r8, r.old)]) := by
  rw [exec_host .tdhMemRd rfl s nofun]
  refine hostCall_ready h ?_
  simp only [hostBody, memRd, opened, answer_goesOn, pure_answers, withOuts_ok]

/-- TDH.MEM.WR from its start stores at once where the environment lets no other agent act. -/
theorem exec_memWr_atOnce (h : HostReady s) (start : s.lp.memWr = none) (opened : openChunk s = .ok (l, r))
    (whole : s.lp.yieldAt = none) : exec .tdhMemWr s = .next (memWrStore s r) := by
  rw [exec_host .tdhMemWr rfl s fun _ => start]
  refine hostCall_ready h ?_
  simp only [hostBody, memWr, opened, whole, answer_goesOn, pure_answers, withOuts_ok, Option.isSome_none,
    Bool.false_eq_true, if_false]

/-- Where the environment lets other agents act, TDH.MEM.WR from its start keeps its locks and what it has read, and no
more. -/
theorem exec_memWr_pauses (h : HostReady s) (start : s.lp.memWr = none) (opened : openChunk s = .ok (l, r))
    (yields : s.lp.yieldAt ≠ none) :
    exec .tdhMemWr s = .next ({ s with locks := l }.modLp fun x => { x with memWr := some r }) := by
  rw [exec_host .tdhMemWr rfl s fun _ => start]
  refine hostCall_ready h ?_
  simp only [hostBody, memWr, opened, Option.isSome_iff_ne_none.2 yields, answer_goesOn, pure_answers, withOuts_ok,
    if_true]

end

/-! ## Between steps 8 and 9 of TDH.MEM.WR (R433 (b)) -/

/-- Giving the locks back and forgetting the run changes no register: the second step stores the R8 of the state it begins
in. -/
theorem memWrResume_eq {s : State} (r : MemWrRun) (h : s.curLp < s.lps.length) :
    memWrResume s r =
      hostReturn
        (writeCached ({ s with locks := releaseChunk s.locks r.tdr }.modLp fun l => { l with memWr := none })
          r.hkid r.hpa (leBytes 8 (s.hreg .r8).toNat))
        Status.success 0 [(.rcx, r.rcx), (.rdx, r.rdx), (.r8, r.old)] := by
  have lp := modLp_lp_of (s := s) (u := { s with locks := releaseChunk s.locks r.tdr })
    (fun l => { l with memWr := none }) h rfl rfl
  simp only [memWrResume, memWrStore, State.hreg, lp]

/-- A logical processor that executes the module does nothing for the host. -/
theorem hostStep_inMemWr {s : State} {r : MemWrRun} (h1 : s.curLp < s.lps.length) (h2 : s.lp.shutdown = false)
    (run : s.lp.memWr = some r) (root : s.lp.curVcpu = none) (op : HostOp) : hostStep s op = .refused .notEnabled := by
  simp [hostStep, lpStop_none h1 h2, root, run]

/-! ## The obligation -/

/-- Settles O25: the hypotheses open the chunk (`openChunk_ok`), and the environment's choice selects TDH.MEM.WR's branch;
of the logical processor, the second of its two steps reads only R8 and the run that the first has left. -/
theorem memRdWrComplete : Obligations.MemRdWrComplete := by
  refine ⟨fun s t c p h ha ht hl hs hg hd hw hp hq => ?_, fun s r h1 h2 run => ⟨?_, fun root op => ?_⟩⟩
  · have opened := openChunk_ok ha ht hl hs hg hd hw hp hq
    rw [pageBytes] at opened
    refine ⟨?_, fun start whole => ?_, fun start yields => ?_⟩
    · rw [exec_memRd_opened h opened]
    · rw [exec_memWr_atOnce h start opened whole, memWrStore]
    · rw [exec_memWr_pauses h start opened yields]
  · rw [exec_memWr_resumes h1 h2 run, memWrResume_eq r h1]
  · exact hostStep_inMemWr h1 h2 run root op

end Sys2Proof.Machine
end

section
/-! PROOFS. TDH.MNG.CREATE and TDH.MNG.ADDCX on legal operands (O7; 41_seamcall_mng_mr.md rules R450 and R451): the body
of each function passes its checks, and what it answers is the state that the obligation writes out. -/

namespace Sys2Proof.Machine

open Safety

/-! ## The two page operands of TDH.MNG.ADDCX -/

/-- A free page operand of 4KB, read as the operand of a function that takes it before the TDR page. -/
theorem freePage_4k {s : State} {pa : Word} {td : Nat} (h : FreePage s pa 0 td) :
    OpaqueOperand s pa 4096 ∧ pageFree s pa.toNat 0 = true ∧ PageTakable s pa.toNat ∧ td ≠ pa.toNat := by
  obtain ⟨operand, free, block1g, small, -⟩ := h
  obtain ⟨apart, block2m, page⟩ := small rfl
  exact ⟨operand, free, ⟨block1g, block2m, page⟩, apart.symm⟩

/-- The locks of one 4KB page operand leave those of another one takable: their blocks are only shared. -/
theorem PageLocked.lockPage4k_other {s : State} {l : Locks} {a b : Nat} (id : Nat) (h : PageLocked s.locks l a)
    (apart : b ≠ a) (takable : PageTakable s b) : ∃ l', lockPage4k l b .exclusive .shared id = .ok l' := by
  obtain ⟨block1g, block2m, page⟩ := takable
  obtain ⟨l', e, -⟩ := lockPage4k_ok (m := .exclusive) id (h.sharable _ (by simp) block1g)
    (h.sharable _ (by simp) block2m) ((h.pamt4k apart).trans page)
  exact ⟨l', e⟩

/-! ## The bodies -/

/-- R451 on a free page and a free private HKID. -/
theorem mngCreate_ok {s : State} (operand : OpaqueOperand s (s.hreg .rcx) 4096)
    (takable : PageTakable s (s.hreg .rcx).toNat) (kot : Takable s .kot) (reserved : bitsOf (s.hreg .rdx) 63 16 = 0)
    (free : pageFree s (s.hreg .rcx).toNat 0 = true)
    (inRange : inPrivateRange s.plat (bitsOf (s.hreg .rdx) 15 0) = true)
    (hkidFree : (kotAt s (bitsOf (s.hreg .rdx) 15 0)).state = .free) :
    mngCreate s =
      .ok (hostReturn
        (({ zeroDirect s s.globalHkid (s.hreg .rcx).toNat 4096 with
            tdrs := tblSet s.tdrs (s.hreg .rcx).toNat (Tdr.created (bitsOf (s.hreg .rdx) 15 0)) }.setKot
          (bitsOf (s.hreg .rdx) 15 0) ⟨.assigned, (kotAt s (bitsOf (s.hreg .rdx) 15 0)).wbcache⟩).assignPage
          (s.hreg .rcx).toNat 0 .tdr 0)
        Status.success 0 []) := by
  obtain ⟨l, tdrLocked, locked⟩ := lockTdr_ok operand takable
  obtain ⟨l', kotLocked, -⟩ := lockOp_ok (l := l) (id := .kot) (m := .exclusive) Operand.kot
    ((locked.notPamt rfl).trans kot)
  simp only [mngCreate, tdrLocked, reserved, kotLocked, free, inRange, hkidFree, beq_self_eq_true, req_true,
    answer_goesOn, pure_answers, zeroDirect_tdrs]

/-- R450 on a free page, for a TD whose keys are configured and whose TDCS is not complete. -/
theorem mngAddcx_ok {s : State} {t : Tdr} (operand : OpaqueOperand s (s.hreg .rdx) 4096)
    (takable : PageTakable s (s.hreg .rdx).toNat) (tdr : TdrPage s (s.hreg .rdx).toNat t)
    (page : FreePage s (s.hreg .rcx) 0 (s.hreg .rdx).toNat) (fatal : t.fatal = false) (init : t.init = false)
    (room : t.numTdcx < s.plat.tdcxRequired) (lifecycle : t.lifecycle = .keysConfigured) :
    mngAddcx s =
      .ok (hostReturn
        (((zeroDirect s t.hkid (s.hreg .rcx).toNat 4096).modTdr (s.hreg .rdx).toNat fun t =>
          t.addTdcx (s.hreg .rcx).toNat).assignPage (s.hreg .rcx).toNat 0 .tdcx (s.hreg .rdx).toNat)
        Status.success 0 []) := by
  obtain ⟨pageOperand, free, pageTakable, apart⟩ := freePage_4k page
  obtain ⟨l, pageLocked, locked⟩ := lockPage4k_ok (m := .exclusive) Operand.rcx pageTakable.1 pageTakable.2.1
    pageTakable.2.2
  obtain ⟨l', tdrLocked⟩ := locked.lockPage4k_other Operand.rdx apart takable
  simp only [mngAddcx, checkHpa_ok _ pageOperand, pageLocked, checkHpa_ok _ operand, tdrLocked, typedTdr_ok _ tdr,
    fatal, init, decide_eq_true room, lifecycle, free, Bool.not_false, beq_self_eq_true, req_true, answer_goesOn,
    pure_answers]

/-! ## The obligation -/

/-- Settles O7: SEAMCALL reaches each function (`exec_host`, `hostCall_ready`), whose body answers the state that the
obligation names (`mngCreate_ok`, `mngAddcx_ok`). -/
theorem mngCreateAddcxComplete : Obligations.MngCreateAddcxComplete := by
  refine ⟨fun s ready operand takable kot reserved free inRange hkidFree => ?_,
    fun s t ready operand takable tdr page fatal init room lifecycle => ?_⟩
  · rw [exec_host .tdhMngCreate rfl s nofun]
    exact hostCall_ready ready (mngCreate_ok operand takable kot reserved free inRange hkidFree)
  · rw [exec_host .tdhMngAddcx rfl s nofun]
    exact hostCall_ready ready (mngAddcx_ok operand takable tdr page fatal init room lifecycle)

end Sys2Proof.Machine
end

section
/-! PROOFS. TDH.SYS.INFO (O2; 42_seamcall_phymem_sys.md rule R485): on legal operands its body passes every check, and the
state that it answers is the one that the obligation writes out. -/

namespace Sys2Proof.Machine

open Safety

/-- A module that is not being shut down goes on. -/
theorem notShutdown_ok {s : State} (running : s.sysState ≠ .sysShutdown) : notShutdown s = .ok () :=
  req_ok (bne_iff_ne.2 running)

/-- R485 on buffers that are long enough, with memory behind them. -/
theorem sysInfo_ok {s : State} (running : s.sysState ≠ .sysShutdown) (initialised : s.sysState ≠ .sysinitPending)
    (lpDone : s.lp.initDone = true) (infoOperand : SharedOperand s (s.hreg .rcx) 1024)
    (cmrOperand : SharedOperand s (s.hreg .r8) 512) (infoLength : 1024 ≤ (s.hreg .rdx).toNat)
    (cmrCount : 32 ≤ (s.hreg .r9).toNat) (infoBacked : SharedBacked s (s.hreg .rcx) 1024)
    (cmrBacked : SharedBacked s (s.hreg .r8) 512) :
    sysInfo s =
      .ok (hostReturn
        (writeShared (writeShared s (s.hreg .rcx).toNat (sysInfoImage s.plat)) (s.hreg .r8).toNat (cmrImage s.plat))
        Status.success 0 [(.rdx, 1024), (.r9, 32)]) := by
  simp only [sysInfo, notShutdown_ok running, bne_iff_ne.2 initialised, lpDone, checkShared_ok _ infoOperand,
    checkShared_ok _ cmrOperand, decide_eq_true infoLength, decide_eq_true cmrCount, reqBacked_ok infoBacked,
    reqBacked_ok cmrBacked, req_true, answer_goesOn, pure_answers]

/-- Settles O2: SEAMCALL reaches the function before the module is ready as well, and the body answers (`sysInfo_ok`). -/
theorem sysInfoCompletes : Obligations.SysInfoCompletes := by
  intro s calls running initialised lpDone infoOperand cmrOperand infoLength cmrCount infoBacked cmrBacked
  have answers := sysInfo_ok running initialised lpDone infoOperand cmrOperand infoLength cmrCount infoBacked cmrBacked
  rw [exec_host .tdhSysInfo rfl s nofun]
  exact hostCall_ok calls (.inl rfl) (withOuts_eq_ok.2 answers)

end Sys2Proof.Machine
end

section
/-! PROOFS. TDH.SYS.CONFIG (O3; 42_seamcall_phymem_sys.md rule R484; 10_state.md rule R52): its body on a legal TDMR list,
and what the key ownership table that it sets up says of every private HKID. -/

namespace Sys2Proof.Machine

open Safety

/-! ## The key ownership table -/

/-- A table made from distinct keys by a function of the key reads as that function. -/
theorem tblGet_map_key {α : Type} (f : Nat → α) {keys : List Nat} {i : Nat} (listed : i ∈ keys) :
    tblGet (keys.map fun k => (k, f k)) i = some (f i) := by
  induction keys with
  | nil => cases listed
  | cons k keys ih =>
    by_cases first : k = i
    · simp [tblGet, first]
    · have later : i ∈ keys := (List.mem_cons.1 listed).resolve_left (Ne.symm first)
      simpa [tblGet, first] using ih later

/-- The HKIDs that the table of R52 lists are the private ones. -/
theorem mem_privateHkids {p : Platform} {h : Nat} (inRange : inPrivateRange p h = true) :
    h ∈ List.range' p.minPrivateHkid (p.maxHkid + 1 - p.minPrivateHkid) := by
  simp only [inPrivateRange, Bool.and_eq_true, decide_eq_true_eq] at inRange
  rw [List.mem_range'_1]
  omega

/-- After TDH.SYS.CONFIG the global private HKID is reserved and every other private HKID is free. -/
theorem tblGet_initialKot {p : Platform} {h : Nat} (global : Nat) (inRange : inPrivateRange p h = true) :
    tblGet (initialKot p global) h = some ⟨if h = global then .reserved else .free, []⟩ :=
  tblGet_map_key (fun k => (⟨if k = global then .reserved else .free, []⟩ : KotEntry)) (mem_privateHkids inRange)

/-! ## The body -/

/-- The module's internal variables, locked exclusively. -/
theorem lockSys_exclusive {s : State} (takable : Takable s .sys) : ∃ l, lockSys s .exclusive = .ok l := by
  obtain ⟨l, acquired⟩ := acquire_ok (m := .exclusive) takable
  exact ⟨l, by rw [lockSys, lockOr, acquired.got, getOr_some]⟩

/-- R484 on a legal TDMR list and a private HKID. -/
theorem sysConfig_ok {s : State} {ts : List Tdmr} (takable : Takable s .sys) (pending : s.sysState = .sysinitDone)
    (lpsDone : ∀ l ∈ s.lps, l.initDone = true) (nonempty : 1 ≤ (s.hreg .rdx).toNat)
    (few : (s.hreg .rdx).toNat ≤ min 64 s.plat.maxTdmrs) (operand : SharedOperand s (s.hreg .rcx) 512)
    (readable : SharedReadable s (s.hreg .rcx) (8 * (s.hreg .rdx).toNat))
    (tdmrs : checkTdmrs s 0 0 ((bytesWords (s.hreg .rdx).toNat
      (sharedBytes s (s.hreg .rcx).toNat (8 * (s.hreg .rdx).toNat))).map BitVec.toNat) = .ok ts)
    (apart : checkOverlaps ts (allPamtAreas 0 ts) = .ok ()) (inCmrs : checkCmrs s.plat 0 ts = .ok ())
    (pamtsInCmrs : checkPamtCmrs s.plat (allPamtAreas 0 ts) = .ok ()) (reserved : bitsOf (s.hreg .r8) 63 16 = 0)
    (inRange : inPrivateRange s.plat (bitsOf (s.hreg .r8) 15 0) = true) :
    sysConfig s =
      .ok (hostReturn
        { s with tdmrs := ts, globalHkid := bitsOf (s.hreg .r8) 15 0,
                 kot := initialKot s.plat (bitsOf (s.hreg .r8) 15 0), pkgConfigBitmap := 0,
                 sysState := .sysconfigDone }
        Status.success 0 []) := by
  obtain ⟨l, locked⟩ := lockSys_exclusive takable
  have running : s.sysState ≠ .sysShutdown := by simp [pending]
  simp only [sysConfig, notShutdown_ok running, locked, pending, List.all_eq_true.2 lpsDone, decide_eq_true nonempty,
    decide_eq_true few, checkShared_ok _ operand, readShared_ok readable, tdmrs, apart, inCmrs, pamtsInCmrs, reserved,
    inRange, beq_self_eq_true, Bool.and_self, req_true, answer_goesOn, pure_answers]

/-! ## The obligation -/

/-- Settles O3: the body answers (`sysConfig_ok`) with the key ownership table of R52, which is read by
`tblGet_initialKot`. -/
theorem sysConfigCompletes : Obligations.SysConfigCompletes := by
  intro s ts calls takable pending lpsDone nonempty few operand readable tdmrs apart inCmrs pamtsInCmrs reserved inRange
  have answers := sysConfig_ok takable pending lpsDone nonempty few operand readable tdmrs apart inCmrs pamtsInCmrs reserved
    inRange
  refine ⟨_, (exec_host .tdhSysConfig rfl s nofun).trans (hostCall_ok calls (.inl rfl) answers), rfl,
    fun h isPrivate => ?_⟩
  rw [kotAt, tblGet_initialKot _ isPrivate, Option.getD_some]

end Sys2Proof.Machine
end

section
/-! PROOFS. TDH.PHYMEM.PAGE.RECLAIM (O28; 42_seamcall_phymem_sys.md rule R482): the locks of a page operand of any size,
then the two ways in which the function ends, for a TDR page and for a page of a TD. -/

namespace Sys2Proof.Machine

open Safety

/-! ## A page operand of the size at which it is assigned -/

/-- PamtWalk knows three page sizes (R251). -/
theorem pamtWalk_level_le (s : State) (a : Nat) : (pamtWalk s a).2 ≤ 2 := by
  unfold pamtWalk
  split
  · exact Nat.le_refl 2
  · split
    · exact Nat.le_succ 1
    · exact Nat.zero_le 2

/-- An aligned address is the base of its page. -/
theorem pageBase_of_aligned {a level : Nat} (aligned : isAligned a (pageBytes level) = true) :
    pageBase a level = a :=
  Nat.div_mul_cancel (Nat.dvd_of_mod_eq_zero (by simpa [isAligned] using aligned))

/-- The lock of a page of a size can be taken exclusively, those of the larger blocks around it shared (R246). -/
abbrev SizedTakable (s : State) (a level : Nat) : Prop :=
  (level = 0 → PageTakable s a) ∧ (level = 1 → Sharable s (.pamt1g (pageBase a 2)) ∧ Takable s (.pamt2m a)) ∧
    (level = 2 → Takable s (.pamt1g a))

/-- The locks of a page operand of any size: what could be shared still can, but for the page itself. -/
theorem lockPage_ok {s : State} {a level : Nat} (id : Nat) (size : level ≤ 2) (takable : SizedTakable s a level) :
    ∃ l, lockPage s.locks a level .exclusive .shared id = .ok l ∧
      ∀ j, j ≠ pamtLock a level → Sharable s j → lockState l j ≠ some .exclusive := by
  obtain ⟨small, middle, large⟩ := takable
  obtain rfl | rfl | rfl : level = 0 ∨ level = 1 ∨ level = 2 := by omega
  case inl =>
    obtain ⟨block1g, block2m, page⟩ := small rfl
    obtain ⟨l, e, locked⟩ := lockPage4k_ok (m := .exclusive) id block1g block2m page
    exact ⟨l, e, locked.sharable⟩
  case inr.inl =>
    obtain ⟨block1g, page⟩ := middle rfl
    obtain ⟨l1, e1, taken1⟩ := lockOp_ok (m := .shared) id block1g
    obtain ⟨l2, e2, taken2⟩ := lockOp_ok (l := l1) (id := .pamt2m a) (m := .exclusive) id
      ((taken1.other (.pamt2m a) (by simp)).trans page)
    refine ⟨l2, by simp only [lockPage, e1, e2, answer_goesOn], fun j other sharable => ?_⟩
    rw [taken2.other j other]
    exact taken1.sharable sharable
  case inr.inr =>
    obtain ⟨l, e, taken⟩ := lockOp_ok (m := .exclusive) id (large rfl)
    refine ⟨l, e, fun j other sharable => ?_⟩
    rw [taken.other j other]
    exact sharable

/-- The lock of a 4KB page is not that of a larger page, nor of another 4KB page. -/
theorem pamt4k_ne_pamtLock {a b level : Nat} (apart : level = 0 → b ≠ a) : LockId.pamt4k b ≠ pamtLock a level := by
  match level with
  | 0 => simpa [pamtLock] using apart rfl
  | 1 | _ + 2 => simp [pamtLock]

/-- The TDR of a page without poison: unlike `getTdr_ok`, this asks for no page type. -/
theorem getTdr_readable {s : State} {a : Nat} {t : Tdr} (readable : pageReadable s s.globalHkid a = true)
    (tdr : tblGet s.tdrs a = some t) : getTdr s a = .ok t := by
  rw [getTdr, readable, tdr, req_true, answer_goesOn, getOr_some]

/-! ## The two ends of the function -/

/-- The structure of a page that is no TDR is a TDVPS or none. -/
theorem forget_of_ne_tdr (s : State) (a : Nat) {pt : PageType} (notTdr : pt ≠ .tdr) :
    s.forget a pt = if pt = .tdvpr then { s with vps := tblDel s.vps a } else s := by
  cases pt with
  | tdr => exact absurd rfl notTdr
  | _ => rfl

/-- Step 3 of R482 for a TD in TD_TEARDOWN without pages. -/
theorem reclaimTdr_ok {s : State} {a : Nat} {e : PamtEntry} {t : Tdr}
    (readable : pageReadable s s.globalHkid a = true) (tdr : tblGet s.tdrs a = some t) (dead : t.lifecycle = .teardown)
    (childless : t.chldcnt = 0) :
    reclaimTdr s a e = .ok (hostReturn ((s.forget a e.pt).freePage a 0) Status.success 0 (reclaimOuts e 0)) := by
  simp only [reclaimTdr, getTdr_readable readable tdr, dead, childless, beq_self_eq_true, req_true, answer_goesOn,
    pure_answers]

/-- Step 2 of R482 for a page of a TD in TD_TEARDOWN. -/
theorem reclaimChild_ok {s : State} {l : Locks} {e : PamtEntry} {t : Tdr} (a level : Nat)
    (sharable : lockState l (.pamt4k e.owner) ≠ some .exclusive) (entries : pamtReadable s e.owner = true)
    (readable : pageReadable s s.globalHkid e.owner = true) (tdr : tblGet s.tdrs e.owner = some t)
    (dead : t.lifecycle = .teardown) :
    reclaimChild s l a level e =
      .ok (hostReturn
        (((s.modTdr e.owner fun t => { t with chldcnt := t.chldcnt - 512 ^ level }).forget a e.pt).freePage a level)
        Status.success 0 (reclaimOuts e level)) := by
  obtain ⟨l', locked⟩ := acquire_ok (m := .shared) sharable
  simp only [reclaimChild, locked.got, getOr_some, entries, getTdr_readable readable tdr, dead, beq_self_eq_true,
    req_true, answer_goesOn, pure_answers]

/-! ## The body up to the test of the page type -/

/-- R482 on an assigned page whose locks can be taken: the page type selects the step that ends the function. -/
theorem phymemPageReclaim_ok {s : State} {e : PamtEntry} {level : Nat} (operand : OpaqueOperand s (s.hreg .rcx) 4096)
    (walk : pamtWalk s (s.hreg .rcx).toNat = (e, level))
    (aligned : isAligned (s.hreg .rcx).toNat (pageBytes level) = true)
    (takable : SizedTakable s (s.hreg .rcx).toNat level) (assigned : e.pt ≠ .nda) (usable : e.pt ≠ .rsvd) :
    ∃ l, (∀ j, j ≠ pamtLock (s.hreg .rcx).toNat level → Sharable s j → lockState l j ≠ some .exclusive) ∧
      phymemPageReclaim s =
        if e.pt = .tdr then reclaimTdr s (s.hreg .rcx).toNat e
        else reclaimChild s l (s.hreg .rcx).toNat level e := by
  have size : level ≤ 2 := by simpa only [walk] using pamtWalk_level_le s (s.hreg .rcx).toNat
  obtain ⟨l, locked, sharable⟩ := lockPage_ok Operand.rcx size takable
  refine ⟨l, sharable, ?_⟩
  simp only [phymemPageReclaim, checkHpa_ok _ operand, walk, pageBase_of_aligned aligned, locked, bne_iff_ne.2 assigned,
    bne_iff_ne.2 usable, aligned, Bool.and_self, req_true, answer_goesOn]

/-! ## The obligation -/

/-- Settles O28: the body reaches the step for the page's type (`phymemPageReclaim_ok`), and that step answers
(`reclaimTdr_ok`, `reclaimChild_ok`). -/
theorem phymemPageReclaimCompletes : Obligations.PhymemPageReclaimCompletes := by
  intro s e level t ready operand walk aligned dead a small middle large outs
  rw [exec_host .tdhPhymemPageReclaim rfl s nofun]
  refine ⟨fun tdrPage size readable tdr childless => ?_,
    fun assigned usable notTdr apart sharable entries readable tdr => ?_⟩ <;>
    refine hostCall_ready ready (withOuts_eq_ok.2 ?_)
  · subst size
    obtain ⟨l, -, body⟩ := phymemPageReclaim_ok operand walk aligned ⟨small, middle, large⟩ (by simp [tdrPage])
      (by simp [tdrPage])
    rw [body, if_pos tdrPage, reclaimTdr_ok readable tdr dead childless, tdrPage]
    rfl
  · obtain ⟨l, kept, body⟩ := phymemPageReclaim_ok operand walk aligned ⟨small, middle, large⟩ assigned usable
    have ownerSharable := kept _ (pamt4k_ne_pamtLock fun size => apart size) sharable
    rw [body, if_neg notTdr, reclaimChild_ok a level ownerSharable entries readable tdr dead, forget_of_ne_tdr _ a notTdr]
    rfl

end Sys2Proof.Machine
end

section
/-! PROOFS. TDH.VP.CREATE, TDH.VP.ADDCX and TDH.VP.INIT on legal operands (O30, O31; 43_seamcall_vp.md rules R510, R511
and R514): the body of each function passes its checks, and what it answers is the state that the obligation writes out. -/

namespace Sys2Proof.Machine

open Safety

/-! ## A TDVPR operand that is locked exclusively -/

/-- The checks from the lock of a TDVPR operand to its TD: after them any other free page of 4KB can be locked. -/
theorem lockVcpu_ok {s : State} {pa : Word} {td : Nat} {t : Tdr} {c : Tdcs} {p : Tdvps} (id : Nat)
    (vcpu : VcpuOperand s pa td t c p) (takable : PageTakable s pa.toNat) :
    ∃ l l', lockPage4k s.locks pa.toNat .exclusive .shared id = .ok l ∧
      lockOwner s l pa.toNat .shared = .ok (l', td, t) ∧
      ∀ b, b ≠ pa.toNat → b ≠ td → PageTakable s b →
        ∃ l'', lockPage4k l' b .exclusive .shared Operand.rcx = .ok l'' := by
  obtain ⟨-, isTdvpr, owner, entries, sharable, tdr, -, -, -⟩ := vcpu
  obtain ⟨l, pageLocked, locked⟩ := lockPage4k_ok (m := .exclusive) id takable.1 takable.2.1 takable.2.2
  have apart : td ≠ pa.toNat := tdr_ne_of_types isTdvpr tdr.1 nofun
  obtain ⟨l', ownerLocked, acquired⟩ := lockOwner_ok (m := .shared) owner entries tdr
    (locked.sharable _ (by simpa using apart) sharable)
  refine ⟨l, l', pageLocked, ownerLocked, fun b notVcpu notTdr ⟨block1g, block2m, page⟩ => ?_⟩
  have free : lockState l' (.pamt4k b) = none :=
    (acquired.other _ (by simpa using notTdr)).trans ((locked.pamt4k notVcpu).trans page)
  obtain ⟨l'', e, -⟩ := lockPage4k_ok (m := .exclusive) Operand.rcx
    (acquired.sharable (locked.sharable _ (by simp) block1g))
    (acquired.sharable (locked.sharable _ (by simp) block2m)) free
  exact ⟨l'', e⟩

/-! ## The bodies -/

/-- R511 on a free page, for a TD that is not finalised. -/
theorem vpCreate_ok {s : State} {t : Tdr} {c : Tdcs} (tdOperand : TdOperand s (s.hreg .rdx) t c)
    (sharable : PageSharable s (s.hreg .rdx).toNat) (building : c.finalized = false)
    (page : FreePage s (s.hreg .rcx) 0 (s.hreg .rdx).toNat) :
    let v := (s.hreg .rcx).toNat
    let td := (s.hreg .rdx).toNat
    let s1 := (zeroDirect s t.hkid v 4096).modTdr td fun t => { t with chldcnt := t.chldcnt + 1 }
    vpCreate s =
      .ok (hostReturn ({ s1 with vps := tblSet s1.vps v (Tdvps.created v) }.assignPage v 0 .tdvpr td)
        Status.success 0 []) := by
  obtain ⟨operand, tdr, usable, tdcs⟩ := tdOperand
  obtain ⟨pageOperand, free, takable, apart⟩ := freePage_4k page
  obtain ⟨l, tdLocked, locked⟩ := lockPage4k_ok (m := .shared) Operand.rdx sharable.1 sharable.2.1 sharable.2.2
  obtain ⟨l', pageLocked⟩ := locked.lockPage4k_other Operand.rcx apart.symm takable
  simp only [vpCreate, checkHpa_ok _ pageOperand, checkHpa_ok _ operand, tdLocked, checkTd_ok _ tdr usable,
    getTdcs_ok tdcs, building, pageLocked, free, Bool.not_false, req_true, answer_goesOn, pure_answers]

/-- R510 on a free page, for an uninitialised VCPU that still needs one. -/
theorem vpAddcx_ok {s : State} {td : Nat} {t : Tdr} {c : Tdcs} {p : Tdvps}
    (vcpu : VcpuOperand s (s.hreg .rdx) td t c p) (takable : PageTakable s (s.hreg .rdx).toNat) (usable : TdUsable t)
    (building : c.finalized = false) (new : p.vcpuState = .uninitialized) (page : FreePage s (s.hreg .rcx) 0 td)
    (distinct : s.hreg .rcx ≠ s.hreg .rdx) (room : p.numTdvpx < s.plat.tdvpxRequired) :
    vpAddcx s =
      .ok (hostReturn
        ((((zeroDirect s t.hkid (s.hreg .rcx).toNat 4096).modVp (s.hreg .rdx).toNat fun p =>
          p.addPage (s.hreg .rcx).toNat).modTdr td fun t =>
          { t with chldcnt := t.chldcnt + 1 }).assignPage (s.hreg .rcx).toNat 0 .tdvpx td)
        Status.success 0 []) := by
  obtain ⟨pageOperand, free, pageTakable, apart⟩ := freePage_4k page
  obtain ⟨l, l', vcpuLocked, ownerLocked, others⟩ := lockVcpu_ok Operand.rdx vcpu takable
  obtain ⟨l'', pageLocked⟩ := others _ (distinct ∘ BitVec.eq_of_toNat_eq) apart.symm pageTakable
  obtain ⟨operand, isTdvpr, -, -, -, -, tdcs, tdvps, readable⟩ := vcpu
  simp only [vpAddcx, checkHpa_ok _ pageOperand, checkHpa_ok _ operand, vcpuLocked, isTdvpr, ownerLocked,
    checkTdState_ok usable, getTdcs_ok tdcs, building, getVp_ok tdvps readable, new, pageLocked, free,
    decide_eq_true room, Bool.not_false, beq_self_eq_true, req_true, answer_goesOn, pure_answers]

/-- R514 on an uninitialised VCPU with all its pages. -/
theorem vpInit_ok {s : State} {td : Nat} {t : Tdr} {c : Tdcs} {p : Tdvps}
    (vcpu : VcpuOperand s (s.hreg .rcx) td t c p) (takable : PageTakable s (s.hreg .rcx).toNat)
    (registers : s.plat.crInitOk = true) (fatal : t.fatal = false) (lifecycle : t.lifecycle = .keysConfigured)
    (building : c.finalized = false) (new : p.vcpuState = .uninitialized)
    (complete : p.numTdvpx = s.plat.tdvpxRequired) (tscAdjust : s.lp.tscAdjust = s.sampledTscAdjust)
    (room : c.numVcpus < c.maxVcpus) :
    vpInit s =
      .ok (hostReturn
        ((s.modVp (s.hreg .rcx).toNat fun p => p.initialised s t c c.numVcpus (s.hreg .rdx)).modTdcs td fun c =>
          { c with numVcpus := c.numVcpus + 1, numAssocVcpus := c.numAssocVcpus + 1 })
        Status.success 0 []) := by
  obtain ⟨l, l', vcpuLocked, ownerLocked, -⟩ := lockVcpu_ok Operand.rcx vcpu takable
  obtain ⟨operand, isTdvpr, -, -, -, -, tdcs, tdvps, readable⟩ := vcpu
  simp only [vpInit, checkHpa_ok _ operand, vcpuLocked, isTdvpr, ownerLocked, fatal, lifecycle, getTdcs_ok tdcs,
    building, getVp_ok tdvps readable, new, complete, tscAdjust, decide_eq_true room, registers, Bool.not_false,
    beq_self_eq_true, req_true, answer_goesOn, pure_answers]

/-! ## The registers that TDH.VP.INIT leaves in the TD VMCS -/

/-- The lists that TDH.VP.INIT writes to the TD VMCS after the guest registers name no natural-width guest-state field:
those begin at 0x6800 (R174 to R184, R189). -/
theorem initControls_below_natural (p : Platform) (c : Tdcs) (n : Nat) :
    ((initGuestState ++ initControls p c ++ initOther p c n).all fun e => decide (e.1 < 0x6800)) = true := by
  have guestState : (initGuestState.all fun e => decide (e.1 < 0x6800)) = true := rfl
  have controls : ((initControls p c).all fun e => decide (e.1 < 0x6800)) = true := rfl
  have other : ((initOther p c n).all fun e => decide (e.1 < 0x6800)) = true := rfl
  simp only [List.all_append, guestState, controls, other, Bool.and_self]

/-- Nor do the fields that hold an address or the HKID, but for the HKID field, whose encoding is the platform's. -/
theorem initAddresses_ne_natural {p : Platform} {t : Tdr} {pages : List Nat} {e : Nat × Word} {f : Nat}
    (natural : 0x6800 ≤ f) (apart : HkidFieldApart p f) (listed : e ∈ initAddresses p t pages) : e.1 ≠ f := by
  simp only [initAddresses, List.mem_append, List.mem_cons, List.not_mem_nil, or_false] at listed
  rcases listed with (rfl | rfl | rfl) | hkidField
  · exact (lt_of_lt_of_le (show Vmcs.virtualApic < 0x6800 by decide) natural).ne
  · exact (lt_of_lt_of_le (show Vmcs.msrBitmap < 0x6800 by decide) natural).ne
  · exact (lt_of_lt_of_le (show Vmcs.veInfo < 0x6800 by decide) natural).ne
  · split at hkidField
    next enc named =>
      obtain rfl := List.mem_singleton.1 hkidField
      rintro rfl
      exact apart named
    next => cases hkidField

/-- A natural-width guest-state field after TDH.VP.INIT holds what the list of guest registers gives it (R173). -/
theorem initialised_vm_natural (v : Tdvps) (s : State) (t : Tdr) (c : Tdcs) (n : Nat) (x : Word) {f : Nat}
    (natural : 0x6800 ≤ f) (apart : HkidFieldApart s.plat f) :
    (v.initialised s t c n x).vm f = regGet (regSetAll [] initGuestRegs) f := by
  refine initialised_vm v s t c n x f fun e listed => ?_
  rw [← List.append_assoc, ← List.append_assoc, List.mem_append] at listed
  rcases listed with fixed | address
  · have below := of_decide_eq_true (List.all_eq_true.1 (initControls_below_natural s.plat c n) e fixed)
    exact (below.trans_le natural).ne
  · exact initAddresses_ne_natural natural apart address

/-! ## The obligations -/

/-- Settles O30: SEAMCALL reaches each function (`exec_host`, `hostCall_ready`), whose body answers the state that the
obligation names (`vpCreate_ok`, `vpAddcx_ok`). -/
theorem vpCreateAddcxComplete : Obligations.VpCreateAddcxComplete := by
  refine ⟨fun s t c ready operand sharable building page => ?_,
    fun s td t c p ready vcpu takable usable building new page distinct room => ?_⟩
  · rw [exec_host .tdhVpCreate rfl s nofun]
    exact hostCall_ready ready (vpCreate_ok operand sharable building page)
  · rw [exec_host .tdhVpAddcx rfl s nofun]
    exact hostCall_ready ready (vpAddcx_ok vcpu takable usable building new page distinct room)

/-- Settles O31: the body answers the state that the obligation names (`vpInit_ok`); the fields of the VCPU are those
that `Tdvps.initialised` lists, three of them in the TD VMCS (`initialised_vm_natural`). -/
theorem vpInitCompletes : Obligations.VpInitCompletes := by
  intro s td t c p ready vcpu takable registers fatal lifecycle building new complete tscAdjust room q
  refine ⟨?_, rfl, rfl, rfl, rfl, rfl, rfl, rfl, rfl, rfl, rfl, fun apart => ⟨?_, ?_, ?_⟩⟩
  · rw [exec_host .tdhVpInit rfl s nofun]
    exact hostCall_ready ready
      (vpInit_ok vcpu takable registers fatal lifecycle building new complete tscAdjust room)
  · exact initialised_vm_natural p s t c _ _ (by decide) fun e => (apart _ e).1 rfl
  · exact initialised_vm_natural p s t c _ _ (by decide) fun e => (apart _ e).2.1 rfl
  · exact initialised_vm_natural p s t c _ _ (by decide) fun e => (apart _ e).2.2 rfl

end Sys2Proof.Machine
end

section
/-! PROOFS. TDH.VP.ENTER of a VCPU to which the entry delivers nothing (O32; 43_seamcall_vp.md rule R512): the locks that
it keeps, its checks of the environment and of zero-stepping, and the VM entry. -/

namespace Sys2Proof.Machine

open Safety

/-! ## The locks that the running VCPU keeps -/

/-- The shared locks of a TDVPR operand and of its TD (R512, footnote 13): those outside the PAMT, the Secure EPT's and the
TD epoch's among them, stay as they were. -/
theorem lockEntry_ok {s : State} {pa : Word} {td : Nat} {t : Tdr} {c : Tdcs} {p : Tdvps}
    (vcpu : VcpuOperand s pa td t c p) (sharable : PageSharable s pa.toNat) (id : Nat) :
    ∃ l, lockPage4k s.locks pa.toNat .shared .shared id = .ok l ∧
      lockOwner s l pa.toNat .shared = .ok (entryLocks s.locks pa.toNat td, td, t) ∧
      ∀ j, j.isPamt = false → lockState (entryLocks s.locks pa.toNat td) j = lockState s.locks j := by
  obtain ⟨-, isTdvpr, owner, entries, tdSharable, tdr, -, -, -⟩ := vcpu
  obtain ⟨l, pageLocked, locked⟩ := lockPage4k_ok (m := .shared) id sharable.1 sharable.2.1 sharable.2.2
  obtain rfl := Except.ok.inj ((lockPage4k_entry id sharable.1 sharable.2.1 sharable.2.2).symm.trans pageLocked)
  have apart : td ≠ pa.toNat := tdr_ne_of_types isTdvpr tdr.1 nofun
  obtain ⟨l', ownerLocked, acquired⟩ := lockOwner_ok (m := .shared) owner entries tdr
    (locked.sharable _ (by simpa using apart) tdSharable)
  obtain rfl : l' = entryLocks s.locks pa.toNat td := by
    simp only [entryLocks, List.foldl]
    conv_rhs => rw [shareLock, acquired.got, Option.getD_some]
  exact ⟨_, pageLocked, ownerLocked, fun j notPamt =>
    (acquired.other j (by rintro rfl; simp [LockId.isPamt] at notPamt)).trans (locked.notPamt notPamt)⟩

/-! ## The checks -/

theorem entryEnvironment_ok {s : State} {p : Tdvps} (bootNt4 : bit s.lp.miscEnable 22 = false)
    (tscAdjust : s.lp.tscAdjust = s.sampledTscAdjust) (monotone : p.lastExitTsc ≤ s.tsc) :
    entryEnvironment s p = .ok () := by
  simp only [entryEnvironment, bootNt4, tscAdjust, decide_eq_true monotone, Bool.not_false, beq_self_eq_true, req_true,
    answer_goesOn]

/-- A GPA that is mapped well enough was reached by a walk without poison. -/
theorem epfPoisoned_of_mapped {s : State} {c : Tdcs} {hkid : Nat} {gpa : Word}
    (mapped : epfMapped s c hkid gpa = true) : epfPoisoned s c hkid gpa = false := by
  unfold epfMapped at mapped
  split at mapped
  next walk => simp [epfPoisoned, walk]
  next => cases mapped

/-- The zero-step check passes without a recorded list, and else where every listed GPA is mapped (R746, D39, D91). -/
theorem zeroStepCheck_ok {s : State} {l : Locks} {td : Nat} {c : Tdcs} {p : Tdvps} {hkid : Nat}
    (unstepped : p.lastEpfGpaListIdx = 0 ∨ lockState l (.sept td) = none ∧
      ∀ g ∈ p.lastEpfGpaList.take p.lastEpfGpaListIdx, epfMapped s c hkid g = true) :
    zeroStepCheck s l td c p hkid = .ok () := by
  rcases unstepped with none | ⟨takable, mapped⟩
  · simp only [zeroStepCheck, none, if_true, List.take_zero, List.any_nil, Bool.not_false, beq_self_eq_true,
      Bool.true_or, req_true, answer_goesOn]
  · obtain ⟨l', septLocked, -⟩ := lockOp_ok (m := .exclusive) Operand.sept takable
    have clean : ((p.lastEpfGpaList.take p.lastEpfGpaListIdx).any fun g => epfPoisoned s c hkid g) = false :=
      List.any_eq_false.2 fun g listed => by simp [epfPoisoned_of_mapped (mapped g listed)]
    have all : ((p.lastEpfGpaList.take p.lastEpfGpaListIdx).all fun g => epfMapped s c hkid g) = true :=
      List.all_eq_true.2 mapped
    simp only [zeroStepCheck, septLocked, clean, all, Bool.or_true, Bool.not_false, req_true, answer_goesOn]
    split <;> rfl

theorem sharedEptpOk_iff {s : State} {p : Tdvps} :
    sharedEptpOk s p = true ↔ (s.plat.entryNeedsSharedEptp = true → p.sharedEptpValid = true) := by
  cases h : s.plat.entryNeedsSharedEptp <;> simp [sharedEptpOk, h]

/-! ## The VM entry -/

/-- A VM entry that succeeds and delivers nothing changes nothing more: `u` holds the VCPU as TDH.VP.ENTER leaves it. -/
theorem enterGuest_plain {s u : State} {v : Nat} {t : Tdr} {c : Tdcs} {p : Tdvps} (plain : EntersPlainly s v p)
    (tdcs : tblGet s.tdcss (s.ownerOf v) = some c)
    (entered : tblGet u.vps v = some ((p.associated s.plat s.curLp t.hkid).enter c.tdEpoch s.lp).entering) :
    enterGuest u v c p = u := by
  obtain ⟨deliver, accepted⟩ := plain
  have norefusal : entryRefusal c p = none := by simpa [EntryAccepted, tdcs] using accepted
  obtain ⟨reattempts, pending⟩ := entered_nothingToDeliver deliver t.hkid c.tdEpoch s.lp
  rw [enterGuest_accepted norefusal, entryEvents_nothing entered reattempts pending]

/-! ## The obligation -/

/-- Settles O32: every check of R512 passes (`lockEntry_ok`, `entryEnvironment_ok`, `associate_ok`, `sharedEptpOk_iff`,
`zeroStepCheck_ok`), and the VM entry delivers nothing (`enterGuest_plain`). -/
theorem vpEnterCompletes : Obligations.VpEnterCompletes := by
  intro s td t c p ready vcpu sharable epoch usable final eptp header plain complete bootNt4 tscAdjust monotone
    ⟨initialised, enabled, here⟩ unstepped v s1 s2
  obtain ⟨l, vcpuLocked, ownerLocked, kept⟩ := lockEntry_ok vcpu sharable Operand.rcx
  obtain ⟨operand, isTdvpr, owner, -, -, -, tdcs, tdvps, readable⟩ := vcpu
  obtain ⟨l', epochLocked, -⟩ := lockOp_ok (m := .shared) Operand.tdEpoch
    (by rw [CanLock, kept (.epoch td) rfl]; exact epoch)
  have stepCheck : zeroStepCheck s (entryLocks s.locks (s.hreg .rcx).toNat td) td c p t.hkid = .ok () :=
    zeroStepCheck_ok (by rwa [kept (.sept td) rfl])
  have full : p.numTdvpx = s.plat.tdvpxRequired := complete
  have entered := modVp_get (fun p => (p.enter c.tdEpoch s.lp).entering)
    (modVp_get (fun p => p.associated s.plat s.curLp t.hkid) tdvps)
  rw [exec_host .tdhVpEnter rfl s nofun]
  refine hostCall_ready ready ?_
  simp only [hostBody, vpEnter, checkHpa_ok _ operand, vcpuLocked, isTdvpr, ownerLocked, checkTdState_ok usable,
    getTdcs_ok tdcs, final, getVp_ok tdvps readable, full, entryEnvironment_ok bootNt4 tscAdjust monotone,
    associate_ok initialised enabled here, sharedEptpOk_iff.2 eptp, epochLocked, stepCheck, header, beq_self_eq_true,
    req_true, answer_goesOn, pure_answers]
  exact congrArg Except.ok (enterGuest_plain plain (owner ▸ tdcs.2) entered)

end Sys2Proof.Machine
end

section
/-! PROOFS. TDH.VP.RD and TDH.VP.WR on an accessible field (O34; 43_seamcall_vp.md rules R515 to R517): up to the
association the two functions only check, so that what becomes of the VCPU there decides their answer. -/

namespace Sys2Proof.Machine

open Safety

section
variable {s : State} {v td : Nat} {t : Tdr} {c : Tdcs} {p : Tdvps} {f : VFieldInfo}

/-- R515 from the association on, for a field that can be read. -/
theorem vpRd_opened (opened : openVp s = .ok (v, td, t, c, p))
    (field : vcpuField s.plat c.xfam c.debug (s.hreg .rdx) = some f) (readable : f.readMask ≠ 0) :
    vpRd s = (do
      let s1 ← associate s v td p t.hkid
      pure (hostReturn s1 Status.success 0
        [(.r8, readVField (p.associated s.plat s.curLp t.hkid) f.field &&& f.readMask)])) := by
  simp only [vpRd, opened, lookupVcpuField, field, getOr_some, bne_iff_ne.2 readable, req_true, answer_goesOn]

/-- R516 from the association on, for a field of which R9 selects bits that can be written. -/
theorem vpWr_opened (opened : openVp s = .ok (v, td, t, c, p))
    (field : vcpuField s.plat c.xfam c.debug (s.hreg .rdx) = some f) (writable : f.writeMask &&& s.hreg .r9 ≠ 0) :
    vpWr s =
      (let q := p.associated s.plat s.curLp t.hkid
      let new := mergeMask (readVField q f.field) (s.hreg .r8) (f.writeMask &&& s.hreg .r9)
      do
        let s1 ← associate s v td p t.hkid
        checkWrite s.plat c q new f.rule
        pure (hostReturn (s1.modVp v fun q => writeVField q f.field new) Status.success 0
          [(.r8, readVField q f.field &&& f.readMask)])) := by
  simp only [vpWr, opened, lookupVcpuField, field, getOr_some, bne_iff_ne.2 writable, req_true, answer_goesOn]

end

/-- SEAMCALL of a function that aborts with a status: the outputs written on every failure come first (R322, D31). -/
theorem hostCall_withOuts_bad {s : State} {body : State → Fn State} {value details : Nat}
    (outs : List (Reg × Word)) (ready : HostReady s) (aborts : body s = .error (bad value details)) :
    hostCall false (fun s => withOuts outs (body s)) s = .next (hostReturn s value details outs) := by
  rw [hostCall_error (e := .status value details outs) ready.1 (.inr ready.2)]
  · rfl
  · rw [aborts, bad, withOuts, List.append_nil]

/-- Settles O34: the hypotheses open the VCPU (`openVp_ok`); the association answers for a VCPU that may be associated
(`associate_ok`) and refuses a disabled one (`associate_disabled`). -/
theorem vpRdWrComplete : Obligations.VpRdWrComplete := by
  intro s td t c p f ready vcpu sharable usable complete field v q w new s1
  have opened := openVp_ok vcpu sharable usable complete
  rw [exec_host .tdhVpRd rfl s nofun, exec_host .tdhVpWr rfl s nofun]
  refine ⟨fun ⟨initialised, enabled, here⟩ readable => ?_, fun ⟨initialised, enabled, here⟩ writable legal => ?_,
    fun disabled => ⟨fun readable => ?_, fun writable => ?_⟩⟩
  · refine hostCall_ready ready (withOuts_eq_ok.2 ?_)
    rw [vpRd_opened opened field readable, associate_ok initialised enabled here]
    rfl
  · refine hostCall_ready ready (withOuts_eq_ok.2 ?_)
    simp only [vpWr_opened opened field writable, associate_ok initialised enabled here, answer_goesOn]
    rw [legal]
    rfl
  · refine hostCall_withOuts_bad _ ready ?_
    rw [vpRd_opened opened field readable, associate_disabled disabled, abort_stops]
  · refine hostCall_withOuts_bad _ ready ?_
    simp only [vpWr_opened opened field writable, associate_disabled disabled, abort_stops]

end Sys2Proof.Machine
end

section
/-! PROOFS. TDG.VP.INFO, TDG.VP.CPUIDVE.SET and TDG.VP.VEINFO.GET on every path (O35, O36; 44_tdcall.md rules R546 to
R548): what each function answers once its VCPU is opened, and TDCALL around that answer. -/

namespace Sys2Proof.Machine

open Safety

/-! ## Sequencing of guest-side functions -/

/-- A guest-side function whose first part answers goes on with that answer. -/
@[simp] theorem guestAnswer_goesOn {α β : Type} (a : α) (next : α → GFn β) :
    (do let r ← (Except.ok a : GFn α); next r) = next a := rfl

/-- A guest-side function whose first part aborts aborts. -/
@[simp] theorem guestAbort_stops {α β : Type} (why : GuestAbort) (next : α → GFn β) :
    (do let r ← (Except.error why : GFn α); next r) = Except.error why := rfl

@[simp] theorem guestPure_answers {α : Type} (a : α) : (pure a : GFn α) = Except.ok a := rfl

section
variable {s : State} {v td : Nat} {t : Tdr} {c : Tdcs} {p : Tdvps}

/-! ## TDCALL around an answer -/

theorem exec_guest_ok {i : Instr} {u : State} (side : i.side = .tdcall) (calls : GuestCalls s v td t c p)
    (answers : guestBody i (s.tdcallEntered v) v = .ok u) : exec i s = .next u :=
  (exec_guest i side s).trans (guestCall_ok calls answers)

theorem exec_guest_status {i : Instr} {a d : Nat} {outs : List (Reg × Word)} (side : i.side = .tdcall)
    (calls : GuestCalls s v td t c p)
    (aborts : guestBody i (s.tdcallEntered v) v = .error (.status a d outs)) :
    exec i s = .next (guestReturn (s.tdcallEntered v) v a d outs) :=
  (exec_guest i side s).trans (guestCall_status calls aborts)

/-! ## What the three functions answer -/

/-- RCX of R547 is the width of the TD's guest physical addresses, as GPAW selects it. -/
theorem w64_gpaWidth (c : Tdcs) : w64 c.gpaWidth = if c.gpaw then 52 else 48 := by
  cases h : c.gpaw <;> simp only [Tdcs.gpaWidth, h] <;> rfl

/-- R547: nothing is checked. -/
theorem vpInfo_answers (runs : RunsGuest s v td t c p) :
    vpInfo (s.tdcallEntered v) v =
      .ok (guestReturn (s.tdcallEntered v) v Status.success 0
        [(.rcx, if c.gpaw then 52 else 48), (.rdx, c.attributes), (.r8, w64 (c.maxVcpus * 2 ^ 32 + c.numVcpus)),
         (.r9, w64 p.vcpuIndex), (.r10, 0), (.r11, 0)]) := by
  simp only [vpInfo, openGuest_ok runs, guestAnswer_goesOn, guestPure_answers, vpInfoOuts, recordExit_vcpuIndex,
    w64_gpaWidth]

/-- R546 up to its only check: the reserved bits of RCX. -/
theorem vpCpuidveSet_opened (runs : RunsGuest s v td t c p) :
    vpCpuidveSet (s.tdcallEntered v) v = (do
      greq (bitsOf p.gprs.rcx 63 2 == 0) (gbad Status.operandInvalid Operand.rcx)
      pure (guestReturn ((s.tdcallEntered v).modVp v fun q =>
        { q with cpuidSupervisorVe := bit p.gprs.rcx 0, cpuidUserVe := bit p.gprs.rcx 1 }) v Status.success 0 [])) := by
  simp only [vpCpuidveSet, openGuest_ok runs, guestAnswer_goesOn, recordExit_gprs]

/-- R548 up to its only check: VALID. -/
theorem vpVeinfoGet_opened (runs : RunsGuest s v td t c p) :
    vpVeinfoGet (s.tdcallEntered v) v = (do
      greq (p.veInfo.valid != 0) (.status Status.noValidVeInfo 0 veInfoZero)
      pure (guestReturn ((s.tdcallEntered v).modVp v fun q => { q with veInfo := { q.veInfo with valid := 0 } }) v
        Status.success 0 (veInfoOuts p.veInfo))) := by
  simp only [vpVeinfoGet, openGuest_ok runs, guestAnswer_goesOn, recordExit_veInfo]

end

/-! ## The obligations -/

/-- Settles O35: TDG.VP.INFO answers (`vpInfo_answers`); TDG.VP.CPUIDVE.SET turns on its check of RCX
(`vpCpuidveSet_opened`). -/
theorem vpInfoCpuidveRules : Obligations.VpInfoCpuidveRules := by
  intro s v td t c p calls s1
  refine ⟨exec_guest_ok rfl calls (vpInfo_answers calls.1), fun clear => exec_guest_ok rfl calls ?_,
    fun reserved => exec_guest_status rfl calls ?_⟩
  · rw [guestBody, vpCpuidveSet_opened calls.1, clear, beq_self_eq_true, greq_true, guestAnswer_goesOn,
      guestPure_answers]
  · rw [guestBody, vpCpuidveSet_opened calls.1, beq_false_of_ne reserved, greq_false, guestAbort_stops, gbad]

/-- Settles O36: TDG.VP.VEINFO.GET turns on its check of VALID (`vpVeinfoGet_opened`). -/
theorem vpVeinfoGetRule : Obligations.VpVeinfoGetRule := by
  intro s v td t c p calls s1
  refine ⟨fun valid => exec_guest_ok rfl calls ?_, fun invalid => exec_guest_status rfl calls ?_⟩
  · rw [guestBody, vpVeinfoGet_opened calls.1, bne_iff_ne.2 valid, greq_true, guestAnswer_goesOn, guestPure_answers,
      veInfoOuts]
  · rw [guestBody, vpVeinfoGet_opened calls.1, invalid, bne_self_eq_false, greq_false, guestAbort_stops, veInfoZero]

end Sys2Proof.Machine
end

section
/-! PROOFS. What a guest can enable stays inside XFAM (O60; 45_cpu_virt.md rules R592, R605 and R606, 46_msr_cpuid_tables.md
rules R661 and R662): an operation of a running guest at CPL 0 is answered with #GP(0) or emulated; each of XSETBV, WRMSR,
RDMSR and the MOVs to CR0 and CR4 is one of the two, as its verdict says. -/

namespace Sys2Proof.Machine

open Safety

/-! ## An instruction that completes -/

section
variable (p : Tdvps) (n : Nat)

@[simp] theorem next_event : (p.next n).event = none := rfl
@[simp] theorem next_xcr0 : (p.next n).xcr0 = p.xcr0 := rfl
@[simp] theorem next_msrs : (p.next n).msrs = p.msrs := rfl
@[simp] theorem entering_msrs : p.entering.msrs = p.msrs := rfl
@[simp] theorem injectException_msrs (vector : Nat) (error : Option Word) :
    (injectException p vector error).msrs = p.msrs := rfl

/-- Of the TD VMCS an instruction that completes writes RIP and the interruptibility state. -/
theorem next_vm {j : Nat} (notRip : Vmcs.rip ≠ j) (notBlocking : Vmcs.interruptibility ≠ j) :
    (p.next n).vm j = p.vm j := by
  show ((p.advance n).setVm Vmcs.interruptibility _).vm j = p.vm j
  rw [setVm_vm, if_neg notBlocking, Tdvps.advance, setVm_vm, if_neg notRip]

theorem next_rip : (p.next n).vm Vmcs.rip = p.vm Vmcs.rip + w64 n := by
  show ((p.advance n).setVm Vmcs.interruptibility _).vm Vmcs.rip = _
  rw [setVm_vm, if_neg (by decide), Tdvps.advance, setVm_vm, if_pos rfl]

end

/-- An injected exception leaves the control registers that the module virtualises as they were. -/
theorem injected_controlReg (p : Tdvps) (x : VmExit) (vector : Nat) (error : Option Word) {j : Nat}
    (controlReg : j = Vmcs.cr0 ∨ j = Vmcs.cr4) :
    ((injectException (recordExit p x) vector error).entering).vm j = p.vm j := by
  rcases controlReg with rfl | rfl <;>
    rw [entering_vm _ _ (by decide), injectException_vm _ _ _ _ (by decide), recordExit_vm _ _ _ (by decide)]

/-! ## The two answers of the module -/

/-- The operation gives #GP(0): the VCPU takes the exception, its RIP, registers, MSRs and control registers are as they
were, and nothing outside the VCPU changes. -/
def TakesGp (s : State) (v : Nat) (p : Tdvps) (op : GuestOp) : Prop :=
  ∃ u q, guestStep s op = .next u ∧ tblGet u.vps v = some q ∧ u = { s with vps := u.vps } ∧
    q.event = some (13, some 0) ∧ q.xcr0 = p.xcr0 ∧ q.msrs = p.msrs ∧ q.gprs = p.gprs ∧
    q.vm Vmcs.cr0 = p.vm Vmcs.cr0 ∧ q.vm Vmcs.cr4 = p.vm Vmcs.cr4 ∧ q.vm Vmcs.rip = p.vm Vmcs.rip

/-- The operation is emulated: the exit `x` is recorded, the effect `f` applied, RIP advanced, the guest resumed (R570);
nothing outside the VCPU changes. -/
def Emulates (s : State) (v : Nat) (p : Tdvps) (op : GuestOp) (x : VmExit) (f : Tdvps → Tdvps) : Prop :=
  ∃ u, guestStep s op = .next u ∧ tblGet u.vps v = some ((f (recordExit p x)).next x.instrLength.toNat).entering ∧
    u = { s with vps := u.vps }

section
variable {s : State} {v td : Nat} {t : Tdr} {c : Tdcs} {p : Tdvps} {op : GuestOp}

/-- Nothing is due before the operation of a guest that acts. -/
theorem guestStep_acts (acts : GuestActs s v td t c p) (op : GuestOp) :
    guestStep s op = .next (guestOp s v t c p op) := by
  obtain ⟨⟨lpExists, lpRuns, current, _, vcpu, rfl, tdr, tdcs, _⟩, noAccept, nothingDue⟩ := acts
  have running : runningGuest s = some (v, t, c, p) := by simp only [runningGuest, current, vcpu, tdr, tdcs]
  simp [guestStep, lpStop_none lpExists lpRuns, running, noAccept, nothingDue]

theorem takesGp_of_guestFault (acts : GuestActs s v td t c p) (notIntercepted : intercepted s v 13 = false) {x : VmExit}
    (faults : guestOp s v t c p op = guestFault s v x 13 (some 0)) : TakesGp s v p op := by
  have step := guestStep_acts acts op
  obtain ⟨⟨_, _, _, enabled, vcpu, _, _, _, readable⟩, _⟩ := acts
  rw [faults, guestFault_injects x enabled readable notIntercepted] at step
  exact ⟨_, _, step, modVp_get _ vcpu, rfl, by simp, by simp, by simp, by simp,
    injected_controlReg _ _ _ _ (.inl rfl), injected_controlReg _ _ _ _ (.inr rfl), injected_rip _ _ _ _⟩

theorem emulates_of_emulated (acts : GuestActs s v td t c p) {x : VmExit} {f : Tdvps → Tdvps}
    (handled : guestOp s v t c p op = emulated s v x f) : Emulates s v p op x f := by
  have step := guestStep_acts acts op
  obtain ⟨⟨_, _, _, enabled, vcpu, _, _, _, readable⟩, _⟩ := acts
  rw [handled, emulated, serveExit_handled _ enabled readable] at step
  exact ⟨_, step, modVp_get _ vcpu, rfl⟩

/-! ## XCR0 and IA32_XSS (R592) -/

theorem xsetbvVerdict_ok {g : Tdvps} {idx x : Word} (accepted : xsetbvVerdict g idx x = .ok) :
    x &&& ~~~g.xfam = 0 ∧ bit x 0 = true := by
  unfold xsetbvVerdict at accepted
  split_ifs at accepted with _ _ outsideXfam combination
  simp only [xcr0Combination, Bool.and_eq_true] at combination
  obtain ⟨⟨⟨⟨bit0, _⟩, _⟩, _⟩, _⟩ := combination
  exact ⟨by simpa using outsideXfam, bit0⟩

/-- XSETBV at CPL 0 with CR4.OSXSAVE: its verdict decides between emulation and #GP(0). -/
theorem opXsetbv_enabled (cpl : p.cpl = 0) (osxsave : bit (p.vm Vmcs.cr4) 18 = true) :
    opXsetbv s v p =
      if xsetbvVerdict p (lo32 p.gprs.rcx) p.gprs.pair = .ok then
        emulated s v (instrExit 55 3) fun q => { q with xcr0 := p.gprs.pair }
      else guestFault s v (instrExit 55 3) 13 (some 0) := by
  simp only [opXsetbv, osxsave, cpl]
  cases xsetbvVerdict p (lo32 p.gprs.rcx) p.gprs.pair <;> rfl

/-- A word lies inside the common bits of two masks when it lies inside both. -/
theorem and_not_and_eq_zero {x a b : Word} : x &&& ~~~(a &&& b) = 0 ↔ x &&& ~~~a = 0 ∧ x &&& ~~~b = 0 := by
  rw [BitVec.not_and, BitVec.and_or_distrib_left]
  exact BitVec.or_eq_zero_iff

theorem xssVerdict_ok_iff {g : Tdvps} {x : Word} : xssVerdict g x = .ok ↔ x &&& ~~~(g.xfam &&& 0x1FD00) = 0 := by
  rw [and_not_and_eq_zero, xssVerdict, supervisorComponents]
  split <;> simp_all

/-- WRMSR of IA32_XSS, when the TD's bitmaps make it exit. -/
theorem opWrmsr_xss (cpl : p.cpl = 0) (index : (lo32 p.gprs.rcx).toNat = 0xDA0) (exits : msrExits c 1 0xDA0 = true) :
    opWrmsr s v p c =
      if xssVerdict p p.gprs.pair = .ok then
        emulated s v (instrExit 32 2) fun q => { q with msrs := regSet q.msrs 0xDA0 p.gprs.pair }
      else guestFault s v (instrExit 32 2) 13 (some 0) := by
  have special : (msrRow 0xDA0).wr = .special := by decide
  simp only [opWrmsr, index, cpl, exits, wrmsrAnswer, special]
  cases xssVerdict p p.gprs.pair <;> rfl

/-! ## The MSRs that need a component of XFAM (R661, R662) -/

/-- The rows of the table are in rising order, so that no index is in two of them. -/
theorem msrTable_rising : msrTable.Pairwise fun a b => a.last < b.first := by decide

theorem msrRow_of_mem {r : MsrRow} {idx : Nat} (listed : r ∈ msrTable) (low : r.first ≤ idx) (high : idx ≤ r.last) :
    msrRow idx = r := by
  obtain ⟨before, after, parts⟩ := List.append_of_mem listed
  have earlier : ∀ a ∈ before, a.last < r.first := fun a ha =>
    (List.pairwise_append.1 (parts ▸ msrTable_rising)).2.2 a ha r List.mem_cons_self
  have found : (msrTable.find? fun r => decide (r.first ≤ idx) && decide (idx ≤ r.last)) = some r :=
    List.find?_eq_some_iff_append.2 ⟨by simp [low, high], before, after, parts, fun a ha => by
      have := earlier a ha
      simp only [Bool.not_eq_true', Bool.and_eq_false_imp, decide_eq_true_eq, decide_eq_false_iff_not]
      omega⟩
  rw [msrRow, found, Option.getD_some]

/-- The row of the table that holds the indices `lo` to `hi` gives #GP(0) both ways under the condition `k`. -/
def GuardedBy (k : MsrCond) (lo hi : Nat) : Prop :=
  ∃ r ∈ msrTable, r.first ≤ lo ∧ hi ≤ r.last ∧ r.rd = .gpIf k ∧ r.wr = .gpIf k

/-- An exiting access to an MSR whose condition holds gives #GP(0). -/
theorem guardedMsr_takesGp (acts : GuestActs s v td t c p) (notIntercepted : intercepted s v 13 = false)
    (cpl : p.cpl = 0) {k : MsrCond} {lo hi : Nat} (guarded : GuardedBy k lo hi) (low : lo ≤ (lo32 p.gprs.rcx).toNat)
    (high : (lo32 p.gprs.rcx).toNat ≤ hi) (holds : k.holds c = true) :
    (msrExits c 0 (lo32 p.gprs.rcx).toNat = true → TakesGp s v p .rdmsr) ∧
      (msrExits c 1 (lo32 p.gprs.rcx).toNat = true → TakesGp s v p .wrmsr) := by
  obtain ⟨r, listed, first, last, rd, wr⟩ := guarded
  have row := msrRow_of_mem listed (first.trans low) (high.trans last)
  exact
    ⟨fun exits => takesGp_of_guestFault acts notIntercepted (x := instrExit 31 2)
      (by simp [guestOp, opRdmsr, cpl, exits, rdmsrAnswer, row, rd, holds]),
    fun exits => takesGp_of_guestFault acts notIntercepted (x := instrExit 32 2)
      (by simp [guestOp, opWrmsr, cpl, exits, wrmsrAnswer, row, wr, holds])⟩

/-- The MSRs of PT, ULI and LBR with their component: first index, last index, bit of XFAM (R661). -/
def xfamMsrs : List (Nat × Nat × Nat) :=
  [(0x560, 0x561, 8), (0x570, 0x572, 8), (0x580, 0x587, 8), (0x985, 0x98A, 14), (0x1200, 0x12FF, 15),
    (0x14CE, 0x14CF, 15), (0x1500, 0x15FF, 15), (0x1600, 0x16FF, 15)]

theorem xfamMsrs_guarded : ∀ r ∈ xfamMsrs, GuardedBy (.noXfam r.2.2) r.1 r.2.1 := by
  unfold GuardedBy
  decide

theorem cetMsrs_guarded : ∀ i ∈ [0x6A0, 0x6A2, 0x6A4, 0x6A5, 0x6A6, 0x6A7, 0x6A8], GuardedBy .noCet i i := by
  unfold GuardedBy
  decide

/-! ## CR4 and CR0 (R605, R606) -/

/-- PKE, CET and UINTR need their components of XFAM. -/
theorem cr4Verdict_gp_of_xfam {plat : Platform} {x : Word}
    (forbidden : (bit x 22 = true ∧ bit p.xfam 9 = false) ∨
      (bit x 23 = true ∧ (bit p.xfam 11 && bit p.xfam 12) = false) ∨ (bit x 25 = true ∧ bit p.xfam 14 = false)) :
    cr4Verdict plat c p x = .gp := by
  unfold cr4Verdict
  rcases forbidden with ⟨pke, without⟩ | ⟨cet, without⟩ | ⟨uli, without⟩
  · simp [pke, without]
  · simp [cet, without]
  · simp [uli, without]

section
variable {x : Word} {i : InstrInfo}

theorem opMovToCr4_gp (cpl : p.cpl = 0) (exits : crExits (p.vm Vmcs.cr4Mask) (p.vm Vmcs.cr4Shadow) x = true)
    (verdict : cr4Verdict s.plat c p x = .gp) : opMovToCr4 s v p c x i = guestFault s v (i.exit 28) 13 (some 0) := by
  simp [opMovToCr4, cpl, exits, verdict]

theorem opMovToCr4_ok (cpl : p.cpl = 0) (exits : crExits (p.vm Vmcs.cr4Mask) (p.vm Vmcs.cr4Shadow) x = true)
    (verdict : cr4Verdict s.plat c p x = .ok) :
    opMovToCr4 s v p c x i = emulated s v (i.exit 28) fun p => p.setVm Vmcs.cr4 (x ||| 0x2000) := by
  simp [opMovToCr4, cpl, exits, verdict]

theorem opMovToCr0_gp (cpl : p.cpl = 0) (exits : crExits (p.vm Vmcs.cr0Mask) (p.vm Vmcs.cr0Shadow) x = true)
    (verdict : cr0Verdict p x = .gp) : opMovToCr0 s v p x i = guestFault s v (i.exit 28) 13 (some 0) := by
  simp [opMovToCr0, cpl, exits, verdict]

theorem opMovToCr0_ok (cpl : p.cpl = 0) (exits : crExits (p.vm Vmcs.cr0Mask) (p.vm Vmcs.cr0Shadow) x = true)
    (verdict : cr0Verdict p x = .ok) : opMovToCr0 s v p x i = emulated s v (i.exit 28) fun p => p.setCr0 x := by
  simp [opMovToCr0, cpl, exits, verdict]

theorem setCr0_cr0 (p : Tdvps) (x : Word) : (p.setCr0 x).vm Vmcs.cr0 = mergeMask x (p.vm Vmcs.cr0) 0x10 := by
  rw [Tdvps.setCr0, setVm_vm, if_neg (by decide), setVm_vm, if_pos rfl]

end

/-- Completing an instruction and entering the guest again write three fields of the TD VMCS. -/
theorem next_entering_vm (q : Tdvps) (n : Nat) {j : Nat} (notRip : Vmcs.rip ≠ j) (notBlocking : Vmcs.interruptibility ≠ j)
    (notControls : j ≠ Vmcs.procbased) : ((q.next n).entering).vm j = q.vm j := by
  rw [entering_vm _ _ notControls, next_vm _ _ notRip notBlocking]

end

/-! ## The obligation -/

section
variable {s : State} {v td : Nat} {t : Tdr} {c : Tdcs} {p : Tdvps}

/-- O60, XSETBV. -/
theorem xsetbv_staysInsideXfam (acts : GuestActs s v td t c p) (notIntercepted : intercepted s v 13 = false)
    (cpl : p.cpl = 0) (osxsave : bit (p.vm Vmcs.cr4) 18 = true) :
    (lo32 p.gprs.rcx = 0 → p.gprs.pair &&& ~~~p.xfam ≠ 0 → TakesGp s v p .xsetbv) ∧
      (∀ u q, guestStep s .xsetbv = .next u → tblGet u.vps v = some q → q.xcr0 ≠ p.xcr0 →
        q.xcr0 &&& ~~~p.xfam = 0 ∧ bit q.xcr0 0 = true ∧ u = { s with vps := u.vps }) := by
  have op := opXsetbv_enabled (s := s) (v := v) cpl osxsave
  by_cases accepted : xsetbvVerdict p (lo32 p.gprs.rcx) p.gprs.pair = .ok
  · obtain ⟨insideXfam, bit0⟩ := xsetbvVerdict_ok accepted
    obtain ⟨w, step, get, frame⟩ := emulates_of_emulated (op := .xsetbv) acts (op.trans (if_pos accepted))
    refine ⟨fun _ outside => absurd insideXfam outside, fun u q step' get' _ => ?_⟩
    cases step.symm.trans step'
    cases get.symm.trans get'
    exact ⟨by simpa using insideXfam, by simpa using bit0, frame⟩
  · have faults := takesGp_of_guestFault (op := .xsetbv) acts notIntercepted (op.trans (if_neg accepted))
    refine ⟨fun _ _ => faults, fun u q step' get' changed => ?_⟩
    obtain ⟨w, r, step, get, _, _, same, _⟩ := faults
    cases step.symm.trans step'
    cases get.symm.trans get'
    exact absurd same changed

/-- O60, WRMSR of IA32_XSS. -/
theorem wrmsr_xss_staysInsideXfam (acts : GuestActs s v td t c p) (notIntercepted : intercepted s v 13 = false)
    (cpl : p.cpl = 0) (index : (lo32 p.gprs.rcx).toNat = 0xDA0) (exits : msrExits c 1 0xDA0 = true) :
    (p.gprs.pair &&& ~~~(p.xfam &&& 0x1FD00) ≠ 0 → TakesGp s v p .wrmsr) ∧
      (p.gprs.pair &&& ~~~(p.xfam &&& 0x1FD00) = 0 →
        ∃ u q, guestStep s .wrmsr = .next u ∧ tblGet u.vps v = some q ∧ u = { s with vps := u.vps } ∧
          q.msrs = regSet p.msrs 0xDA0 p.gprs.pair ∧ q.event = none ∧ q.vm Vmcs.rip = p.vm Vmcs.rip + 2) := by
  have op := opWrmsr_xss (s := s) (v := v) cpl index exits
  refine ⟨fun outside => takesGp_of_guestFault acts notIntercepted (op.trans (if_neg (mt xssVerdict_ok_iff.1 outside))),
    fun inside => ?_⟩
  obtain ⟨u, step, get, frame⟩ :=
    emulates_of_emulated (op := .wrmsr) acts (op.trans (if_pos (xssVerdict_ok_iff.2 inside)))
  refine ⟨u, _, step, get, frame, by simp, by simp, ?_⟩
  rw [entering_vm _ _ (by decide), next_rip]
  exact congrArg (· + 2) (recordExit_vm p _ Vmcs.rip (by decide))

/-- O60, MOV to CR4. -/
theorem movToCr4_staysInsideXfam (acts : GuestActs s v td t c p) (notIntercepted : intercepted s v 13 = false)
    (cpl : p.cpl = 0) (x : Word) (i : InstrInfo)
    (exits : crExits (p.vm Vmcs.cr4Mask) (p.vm Vmcs.cr4Shadow) x = true) :
    (cr4Verdict s.plat c p x = .gp → TakesGp s v p (.movToCr4 x i)) ∧
      (cr4Verdict s.plat c p x = .ok →
        ∃ u q, guestStep s (.movToCr4 x i) = .next u ∧ tblGet u.vps v = some q ∧
          q.vm Vmcs.cr4 = x ||| 0x2000 ∧ q.event = none) := by
  refine ⟨fun gp => takesGp_of_guestFault acts notIntercepted (opMovToCr4_gp cpl exits gp), fun ok => ?_⟩
  obtain ⟨u, step, get, _⟩ := emulates_of_emulated (op := .movToCr4 x i) acts (opMovToCr4_ok cpl exits ok)
  refine ⟨u, _, step, get, ?_, by simp⟩
  rw [next_entering_vm _ _ (by decide) (by decide) (by decide), setVm_vm, if_pos rfl]

/-- O60, MOV to CR0. -/
theorem movToCr0_checked (acts : GuestActs s v td t c p) (notIntercepted : intercepted s v 13 = false)
    (cpl : p.cpl = 0) (x : Word) (i : InstrInfo)
    (exits : crExits (p.vm Vmcs.cr0Mask) (p.vm Vmcs.cr0Shadow) x = true) :
    (cr0Verdict p x = .gp → TakesGp s v p (.movToCr0 x i)) ∧
      (cr0Verdict p x = .ok →
        ∃ u q, guestStep s (.movToCr0 x i) = .next u ∧ tblGet u.vps v = some q ∧
          q.vm Vmcs.cr0 = mergeMask x (p.vm Vmcs.cr0) 0x10 ∧ q.event = none) := by
  refine ⟨fun gp => takesGp_of_guestFault acts notIntercepted (opMovToCr0_gp cpl exits gp), fun ok => ?_⟩
  obtain ⟨u, step, get, _⟩ := emulates_of_emulated (op := .movToCr0 x i) acts (opMovToCr0_ok cpl exits ok)
  refine ⟨u, _, step, get, ?_, by simp⟩
  rw [next_entering_vm _ _ (by decide) (by decide) (by decide), setCr0_cr0, recordExit_vm _ _ _ (by decide)]

end

/-- Settles O60: each operation by its own lemma; an MSR of PT, ULI, LBR or CET by the row of the table that guards it. -/
theorem extendedStateStaysInsideXfam : Obligations.ExtendedStateStaysInsideXfam := by
  intro s v td t c p acts notIntercepted cpl
  refine ⟨xsetbv_staysInsideXfam acts notIntercepted cpl, wrmsr_xss_staysInsideXfam acts notIntercepted cpl,
    fun r listed low high without => ?_, fun listed without => ?_, fun x i exits => ?_,
    movToCr0_checked acts notIntercepted cpl⟩
  · exact guardedMsr_takesGp acts notIntercepted cpl (xfamMsrs_guarded r listed) low high (by simp [MsrCond.holds, without])
  · exact guardedMsr_takesGp acts notIntercepted cpl (cetMsrs_guarded _ listed) le_rfl le_rfl
      (by simp only [MsrCond.holds, without, Bool.not_false])
  · obtain ⟨faults, completes⟩ := movToCr4_staysInsideXfam acts notIntercepted cpl x i exits
    exact ⟨fun forbidden => faults (cr4Verdict_gp_of_xfam forbidden), completes⟩

end Sys2Proof.Machine
end

section
/-! PROOFS. TDH.MNG.INIT on legal TD_PARAMS (O9; 41_seamcall_mng_mr.md rule R452): the parameter checks pass, so does the
rest of the body, and of the TDCS that it builds only the MSR bitmaps are made from the other fields. -/

namespace Sys2Proof.Machine

open Safety

/-! ## TD_PARAMS -/

/-- What step 8 of R452 asks of TD_PARAMS, and of IA32_MISC_ENABLE (BOOT_NT4). -/
structure LegalParams (s : State) (q : TdParams) : Prop where
  attributes : attributesLegal s.plat q.attributes = true
  xfam : xfamLegal s.plat q.xfam = true
  maxVcpus : q.maxVcpus ≠ 0
  eptpControls : eptpControlsLegal q.eptpControls = true
  execControls : execControlsLegal q.execControls q.eptpControls = true
  slowest : 4 ≤ q.tscFrequency
  fastest : q.tscFrequency ≤ 400
  reservedZero : q.reservedZero = true
  cpuid : ∀ e ∈ (s.plat.cpuidConfig.map CpuidConfig.effective).zip q.cpuid, cpuidWithin e.1.mask e.2 = true
  bootNt4 : bit s.lp.miscEnable 22 = false

/-- A CPUID configuration within its masks passes. -/
theorem checkCpuidConfig_ok {cs : List (CpuidConfig × CpuidRegs)}
    (within : ∀ e ∈ cs, cpuidWithin e.1.mask e.2 = true) : checkCpuidConfig cs = .ok () := by
  induction cs with
  | nil => rfl
  | cons e cs ih =>
    obtain ⟨first, rest⟩ := List.forall_mem_cons.1 within
    simp only [checkCpuidConfig, first, req_true, answer_goesOn, ih rest]

theorem checkParams_ok {s : State} {q : TdParams} (legal : LegalParams s q) : checkParams s q = .ok () := by
  simp only [checkParams, legal.attributes, legal.xfam, bne_iff_ne.2 legal.maxVcpus, legal.eptpControls,
    legal.execControls, decide_eq_true legal.slowest, decide_eq_true legal.fastest, legal.reservedZero,
    checkCpuidConfig_ok legal.cpuid, legal.bootNt4, Bool.and_self, Bool.not_false, req_true, answer_goesOn]

/-! ## The MSR bitmaps (R662) -/

section
variable (c : Tdcs) (bitmaps : RegFile)

theorem MsrCond.holds_setBitmaps (k : MsrCond) : k.holds { c with msrBitmaps := bitmaps } = k.holds c := by
  cases k <;> rfl

theorem MsrAct.noExit_setBitmaps (a : MsrAct) : a.noExit { c with msrBitmaps := bitmaps } = a.noExit c := by
  cases a with
  | gpIf k => exact congrArg not (k.holds_setBitmaps c bitmaps)
  | _ => rfl

theorem applyMsrRows_setBitmaps (b : RegFile) (rows : List MsrRow) :
    applyMsrRows { c with msrBitmaps := bitmaps } b rows = applyMsrRows c b rows := by
  induction rows generalizing b with
  | nil => rfl
  | cons r rows ih => simp only [applyMsrRows, MsrAct.noExit_setBitmaps, ih]

/-- The bitmaps are made from ATTRIBUTES, XFAM and the CPUID values, not from what the field held before. -/
theorem msrBitmaps_setBitmaps : msrBitmaps { c with msrBitmaps := bitmaps } = msrBitmaps c :=
  applyMsrRows_setBitmaps c bitmaps _ _

end

/-! ## The TDCS -/

/-- The TDCS that TDH.MNG.INIT leaves: the one of R452's steps 6 to 11 with its MSR bitmaps. -/
def initialisedTdcs (s : State) (q : TdParams) (root : Nat) : Tdcs :=
  { Tdcs.created s q root with msrBitmaps := msrBitmaps (Tdcs.created s q root) }

/-- R630: TSC_OFFSET takes away the scaled TSC at the time of TDH.MNG.INIT. -/
theorem virtTsc_initialisedTdcs (s : State) (q : TdParams) (root : Nat) :
    virtTsc (initialisedTdcs s q root) s.tsc = 0 := by
  simp only [virtTsc, initialisedTdcs, Tdcs.created, add_sub_cancel]

/-! ## The body -/

/-- R452 on the TDR of a TD that has its keys and its TDCX pages, and on legal TD_PARAMS. -/
theorem mngInit_ok {s : State} {t : Tdr} {q : TdParams} (operand : OpaqueOperand s (s.hreg .rcx) 4096)
    (takable : PageTakable s (s.hreg .rcx).toNat) (paramsOperand : SharedOperand s (s.hreg .rdx) 1024)
    (readable : SharedReadable s (s.hreg .rdx) 1024) (tdr : TdrPage s (s.hreg .rcx).toNat t)
    (fatal : t.fatal = false) (init : t.init = false) (lifecycle : t.lifecycle = .keysConfigured)
    (complete : t.numTdcx = s.plat.tdcxRequired)
    (params : TdParams.ofBytes (sharedBytes s (s.hreg .rdx).toNat 1024) s.plat.cpuidConfig.length = q)
    (legal : LegalParams s q) (adjust : s.lp.tscAdjust = s.sampledTscAdjust) :
    mngInit s =
      .ok (hostReturn
        { ((s.clearSeptPage (t.rootPage s.plat)).modTdr (s.hreg .rcx).toNat fun t => { t with init := true }) with
          tdcss := tblSet s.tdcss (s.hreg .rcx).toNat (initialisedTdcs s q (t.rootPage s.plat)) }
        Status.success 0 [(.rcx, 0)]) := by
  obtain ⟨l, locked, -⟩ := lockTdr_ok operand takable
  simp only [mngInit, locked, checkShared_ok _ paramsOperand, typedTdr_ok _ tdr, fatal, init, lifecycle, complete,
    readShared_ok readable, params, checkParams_ok legal, adjust, Bool.not_false, beq_self_eq_true, req_true,
    answer_goesOn, pure_answers, State.modTdr_tdcss, State.clearSeptPage_tdcss, initialisedTdcs]

/-! ## The obligation -/

/-- Settles O9: SEAMCALL reaches the function, whose body answers (`mngInit_ok`) with the TDCS `initialisedTdcs`; its
virtual TSC starts at 0 (`virtTsc_initialisedTdcs`), its bitmaps are those of its other fields (`msrBitmaps_setBitmaps`). -/
theorem mngInitCompletes : Obligations.MngInitCompletes := by
  intro s t q ready operand takable paramsOperand readable tdr fatal init lifecycle complete params attributes xfam
    maxVcpus eptp execControls slowest fastest reserved cpuid bootNt4 adjust td
  have legal : LegalParams s q :=
    ⟨attributes, xfam, maxVcpus, eptp, execControls, slowest, fastest, reserved, cpuid, bootNt4⟩
  refine ⟨initialisedTdcs s q (t.rootPage s.plat), ?_, rfl, rfl, rfl, rfl, rfl, rfl, rfl, rfl, rfl,
    virtTsc_initialisedTdcs _ _ _, rfl, rfl, rfl, rfl, rfl, rfl, rfl, rfl, rfl, rfl, rfl, ?_, rfl⟩
  · rw [exec_host .tdhMngInit rfl s nofun]
    exact hostCall_ready ready (withOuts_eq_ok.2 (mngInit_ok operand takable paramsOperand readable tdr fatal init
      lifecycle complete params.symm legal adjust))
  · exact (msrBitmaps_setBitmaps _ _).symm

end Sys2Proof.Machine
end

section
/-! PROOFS. The CPUID leaves whose values the module fixes, and what the guest reads of a leaf (O59; 46_msr_cpuid_tables.md
rules R670 to R690, 45_cpu_virt.md rules R575 and R600): the entry that a leaf and sub-leaf find in the table is stored by
TDH.MNG.INIT at the same index, and CPUID of a guest that acts is emulated or gives #VE. -/

namespace Sys2Proof.Machine

open Safety

/-! ## Rows of the table -/

/-- A row whose registers hold the same value on every platform and in every TD. -/
def CpuidRow.constant (leaf : Nat) (sub : Option Nat) (k : CpuidRegs) : CpuidRow :=
  ⟨leaf, sub, ⟨k.eax, 0, 0, 0, []⟩, ⟨k.ebx, 0, 0, 0, []⟩, ⟨k.ecx, 0, 0, 0, []⟩, ⟨k.edx, 0, 0, 0, []⟩⟩

/-- A leaf printed without sub-leaves is found for every sub-leaf. -/
theorem find_covers_of_leaf {leaf : Nat} {k : CpuidRegs}
    (found : (cpuidTable.find? fun r => r.leaf == leaf) = some (.constant leaf none k)) (sub : Nat) :
    (cpuidTable.find? fun r => r.covers leaf sub) = some (.constant leaf none k) := by
  obtain ⟨-, before, after, parts, earlier⟩ := List.find?_eq_some_iff_append.1 found
  refine List.find?_eq_some_iff_append.2 ⟨?_, before, after, parts, fun r hr => ?_⟩
  · simp [CpuidRow.covers, CpuidRow.constant]
  · have other : (r.leaf == leaf) = false := by simpa using earlier r hr
    rw [CpuidRow.covers, other, Bool.false_and, Bool.not_false]

/-- The index of R690 is that of the row found. -/
theorem cpuidIndex_of_find {leaf sub : Nat} {row : CpuidRow}
    (found : (cpuidTable.find? fun r => r.covers leaf sub) = some row) :
    ∃ i, cpuidIndex leaf sub = some i ∧ cpuidTable[i]? = some row := by
  obtain ⟨covers, i, bound, here, earlier⟩ := List.find?_eq_some_iff_getElem.1 found
  refine ⟨i, List.findIdx?_eq_some_iff_getElem.2 ⟨bound, by rwa [here], fun j before => ?_⟩,
    List.getElem?_eq_some_iff.2 ⟨bound, here⟩⟩
  simpa using earlier j before

/-- The leaves that read 0 whatever the sub-leaf (R673, R677, R680 and R686). -/
def zeroLeaves : List Nat := [0x3, 0x8, 0xE, 0x11, 0x12, 0x13, 0x20]

theorem zeroLeaves_found : ∀ leaf ∈ zeroLeaves,
    (cpuidTable.find? fun r => r.leaf == leaf) = some (.constant leaf none ⟨0, 0, 0, 0⟩) := by decide

/-- No field of the leaf depends on the VCPU, and none but the TSC frequency is calculated (R670, R672, R679, R682, R689). -/
abbrev PlainLeaf (leaf : Nat) : Prop := leaf ≠ 1 ∧ leaf ≠ 7 ∧ leaf ≠ 0xD

theorem zeroLeaves_plain : ∀ leaf ∈ zeroLeaves, PlainLeaf leaf ∧ leaf ≠ 0x15 := by decide

/-- R682: EBX is calculated from the TSC frequency. -/
theorem leaf15_found :
    (cpuidTable.find? fun r => r.covers 0x15 0) = some (.constant 0x15 none ⟨1, 0, 0x017D7840, 0⟩) := by decide

theorem leaf21_found : (cpuidTable.find? fun r => r.covers 0x21 0) =
    some (.constant 0x21 (some 0) ⟨0, 0x65746E49, 0x20202020, 0x5844546C⟩) := by decide

theorem leaf21_onlySub : ∀ r ∈ cpuidTable, r.leaf = 0x21 → r.sub = some 0 := by decide

/-- R690: the table lists no other sub-leaf of leaf 0x21. -/
theorem cpuidIndex_leaf21_other {sub : Nat} (other : sub ≠ 0) : cpuidIndex 0x21 sub = none := by
  refine List.findIdx?_eq_none_iff.2 fun r listed => ?_
  by_cases leaf : r.leaf = 0x21
  · simp [CpuidRow.covers, leaf21_onlySub r listed leaf, other.symm]
  · simp [CpuidRow.covers, leaf]

/-! ## Stored values -/

/-- R670: the bits of a field that is the same everywhere. -/
theorem CpuidReg.value_constant (k native config : BitVec 32) (attributes xfam : Word) :
    CpuidReg.value ⟨k, 0, 0, 0, []⟩ attributes xfam native config = k := by
  simp [CpuidReg.value, condMask]

/-- Of a constant row only the calculated fields are not its constant. -/
theorem cpuidStored_constant (p : Platform) (attributes xfam : Word) (frequency : Nat)
    (config : List (CpuidConfig × CpuidRegs)) (leaf : Nat) (sub : Option Nat) (k : CpuidRegs) :
    cpuidStored p attributes xfam frequency config (.constant leaf sub k) =
      cpuidCalculated p xfam frequency (.constant leaf sub k) k := by
  simp only [cpuidStored, CpuidRow.constant, CpuidReg.value_constant]

theorem cpuidCalculated_plain (p : Platform) (xfam : Word) (frequency : Nat) {r : CpuidRow} (k : CpuidRegs)
    (plain : PlainLeaf r.leaf) (notTsc : r.leaf ≠ 0x15) : cpuidCalculated p xfam frequency r k = k := by
  simp [cpuidCalculated, plain, notTsc]

theorem cpuidPatch_plain (v : Tdvps) {leaf : Nat} (sub : Nat) (k : CpuidRegs) (plain : PlainLeaf leaf) :
    cpuidPatch v leaf sub k = k := by
  simp [cpuidPatch, plain]

section
variable {s : State} {q : TdParams} {root : Nat} {c : Tdcs}

/-- TDH.MNG.INIT stores the rows at their own indices. -/
theorem cpuidAt_created (made : c.cpuidValues = (Tdcs.created s q root).cpuidValues) {i : Nat} {row : CpuidRow}
    (listed : cpuidTable[i]? = some row) :
    c.cpuidAt i =
      cpuidStored s.plat q.attributes q.xfam q.tscFrequency (s.plat.cpuidConfig.zip q.cpuid) row := by
  obtain ⟨bound, -⟩ := List.getElem?_eq_some_iff.1 listed
  rw [Tdcs.cpuidAt, made, Tdcs.created, List.getD_eq_getElem?_getD, List.getElem?_append_left (by rwa [List.length_map]),
    List.getElem?_map, listed, Option.map_some, Option.getD_some]

/-- What a guest sees of a constant row in which nothing depends on the VCPU. -/
theorem cpuidVirtual_constant (made : c.cpuidValues = (Tdcs.created s q root).cpuidValues) (p : Platform) (v : Tdvps)
    {leaf sub : Nat} {rowSub : Option Nat} {k : CpuidRegs}
    (found : (cpuidTable.find? fun r => r.covers leaf sub) = some (.constant leaf rowSub k))
    (plain : PlainLeaf leaf) :
    cpuidVirtual p v c leaf sub = some (cpuidCalculated s.plat q.xfam q.tscFrequency (.constant leaf rowSub k) k) := by
  obtain ⟨i, index, listed⟩ := cpuidIndex_of_find found
  simp only [cpuidVirtual, index, cpuidAt_created made listed, cpuidStored_constant, cpuidPatch_plain v _ _ plain]

end

/-- R575, R690: the other sub-leaves of leaf 0x21, as the parameter says. -/
theorem cpuidVirtual_leaf21_other (p : Platform) (v : Tdvps) (c : Tdcs) {sub : Nat} (other : sub ≠ 0) :
    cpuidVirtual p v c 0x21 sub = if p.cpuid21OthersZero then some ⟨0, 0, 0, 0⟩ else none := by
  simp [cpuidVirtual, cpuidIndex_leaf21_other other]

/-! ## CPUID of a guest (R600) -/

section
variable (p : Tdvps) (n : Nat)

@[simp] theorem next_gprs : (p.next n).gprs = p.gprs := rfl
@[simp] theorem next_xbuff : (p.next n).xbuff = p.xbuff := rfl
@[simp] theorem next_veInfo : (p.next n).veInfo = p.veInfo := rfl
@[simp] theorem entering_xbuff : p.entering.xbuff = p.xbuff := rfl

end

section
variable {g : State} {a td : Nat} {t : Tdr} {c : Tdcs} {v : Tdvps}

/-- CPUID of a leaf without a value gives #VE. -/
theorem cpuid_givesVe (acts : GuestActs g a td t c v) (conditional : v.cpuidVe = false)
    (unlisted : cpuidVirtual g.plat v c (lo32 v.gprs.rax).toNat (lo32 v.gprs.rcx).toNat = none) :
    guestStep g .cpuid = .next (guestVe g a (instrExit 10 2)) := by
  rw [guestStep_acts acts]
  simp [guestOp, opCpuid, conditional, unlisted]

/-- CPUID of a leaf with a value is emulated. -/
theorem cpuid_emulates (acts : GuestActs g a td t c v) (conditional : v.cpuidVe = false) {r : CpuidRegs}
    (listed : cpuidVirtual g.plat v c (lo32 v.gprs.rax).toNat (lo32 v.gprs.rcx).toNat = some r) :
    Emulates g a v .cpuid (instrExit 10 2) fun q => { q with gprs := q.gprs.setCpuid r } :=
  emulates_of_emulated acts (by simp [guestOp, opCpuid, conditional, listed])

end

/-! ## The obligation -/

/-- Settles O59: the fixed leaves are constant rows (`cpuidVirtual_constant`), of which only leaf 0x15 has a calculated
field; the instruction is emulated or gives #VE (`cpuid_emulates`, `cpuid_givesVe`). -/
theorem cpuidFixedLeaves : Obligations.CpuidFixedLeaves := by
  intro s q root c v made
  refine ⟨fun leaf fixed sub => ?_, ?_, ?_, fun sub other => cpuidVirtual_leaf21_other _ _ _ other,
    fun g a td t acts conditional => ⟨cpuid_givesVe acts conditional, fun r listed => ?_⟩⟩
  · obtain ⟨plain, notTsc⟩ := zeroLeaves_plain leaf fixed
    rw [cpuidVirtual_constant made _ _ (find_covers_of_leaf (zeroLeaves_found leaf fixed) sub) plain,
      cpuidCalculated_plain _ _ _ _ plain notTsc]
  · rw [cpuidVirtual_constant made _ _ leaf15_found (by decide)]
    rfl
  · rw [cpuidVirtual_constant made _ _ leaf21_found (by decide), cpuidCalculated_plain _ _ _ _ (by decide) (by decide)]
  · obtain ⟨u, step, get, frame⟩ := cpuid_emulates acts conditional listed
    refine ⟨u, _, step, get, frame, by simp [Gprs.setCpuid], ?_, by simp, by simp, by simp, by simp, by simp⟩
    rw [entering_vm _ _ (by decide), next_rip]
    exact congrArg (· + 2) (recordExit_vm v _ Vmcs.rip (by decide))

end Sys2Proof.Machine
end

section
/-! PROOFS. TDG.VP.VMCALL (O41; 44_tdcall.md rule R549): what the mask passes of the guest's general registers and XMM
registers, what the INIT state leaves of the host's extended state, and the TD exit around them. -/

namespace Sys2Proof.Machine

open Safety

/-! ## The general registers (R549 steps 4.3 to 4.5) -/

/-- A register is the source's if it is listed and the mask selects it, else the destination's. -/
theorem passGprs_get (mask : Word) (src dst : Gprs) (rs : List Reg) (q : Reg) :
    (passGprs mask src dst rs).get q = if q ∈ rs ∧ bit mask q.id = true then src.get q else dst.get q := by
  induction rs generalizing dst with
  | nil => simp [passGprs]
  | cons r rs ih =>
    rw [passGprs, ih]
    by_cases selected : bit mask r.id = true
    · by_cases same : r = q
      · subst same
        simp [selected, Gprs.get_set]
      · simp [selected, Gprs.get_set, same, Ne.symm same]
    · by_cases same : q = r
      · subst same
        simp [selected]
      · simp [selected, same]

@[simp] theorem Gprs.zero_get (r : Reg) : Gprs.zero.get r = 0 := by cases r <;> rfl

/-- TDG.VP.VMCALL can pass every general register but RAX and RCX. -/
theorem mem_passedRegs {r : Reg} : r ∈ passedRegs ↔ r ≠ .rax ∧ r ≠ .rcx := by cases r <;> decide

theorem vmcallGprs_rax (g : Gprs) : (vmcallGprs g).rax = 77 := by
  show statusWord Status.success 77 = 77
  decide

@[simp] theorem vmcallGprs_rcx (g : Gprs) : (vmcallGprs g).rcx = g.rcx := rfl

theorem vmcallGprs_get (g : Gprs) {r : Reg} (notRax : r ≠ .rax) (notRcx : r ≠ .rcx) :
    (vmcallGprs g).get r = if bit g.rcx r.id = true then g.get r else 0 := by
  have passed : (vmcallGprs g).get r = (passGprs g.rcx g Gprs.zero passedRegs).get r := by
    cases r with
    | rax => exact absurd rfl notRax
    | rcx => exact absurd rfl notRcx
    | _ => rfl
  rw [passed, passGprs_get, Gprs.zero_get]
  simp only [mem_passedRegs.2 ⟨notRax, notRcx⟩, true_and]

/-! ## The extended state (R549 step 4.2, R700 step 6) -/

theorem xmmKey_inj {i j h k : Nat} (hh : h < 2) (hk : k < 2) : xmmKey i h = xmmKey j k ↔ i = j ∧ h = k := by
  unfold xmmKey
  omega

/-- An element that is not of a listed XMM register stays the host's. -/
theorem passXmmOut_other (mask : Word) (guest host : RegFile) {is : List Nat} {k : Nat}
    (other : ∀ i ∈ is, ∀ h < 2, k ≠ xmmKey i h) : regGet (passXmmOut mask guest host is) k = regGet host k := by
  induction is generalizing host with
  | nil => rfl
  | cons i is ih =>
    have here := other i List.mem_cons_self
    rw [passXmmOut, ih _ fun j hj => other j (List.mem_cons_of_mem i hj), regGet_regSet, regGet_regSet,
      if_neg (here 1 (by decide)).symm, if_neg (here 0 (by decide)).symm]

/-- A listed XMM register is the guest's if the mask selects it, else 0. -/
theorem passXmmOut_xmm (mask : Word) (guest host : RegFile) {is : List Nat} {i h : Nat} (listed : i ∈ is)
    (half : h < 2) :
    regGet (passXmmOut mask guest host is) (xmmKey i h) =
      if bit mask (16 + i) then regGet guest (xmmUnit i h) else 0 := by
  induction is generalizing host with
  | nil => cases listed
  | cons j is ih =>
    rw [passXmmOut]
    by_cases later : i ∈ is
    · exact ih _ later
    · obtain rfl : i = j := (List.mem_cons.1 listed).resolve_right later
      have untouched : ∀ j ∈ is, ∀ k < 2, xmmKey i h ≠ xmmKey j k := by
        intro j hj k hk same
        obtain ⟨rfl, _⟩ := (xmmKey_inj half hk).1 same
        exact later hj
      rw [passXmmOut_other _ _ _ untouched, regGet_regSet, regGet_regSet]
      simp only [xmmKey_inj Nat.one_lt_two half, xmmKey_inj Nat.two_pos half, true_and]
      obtain rfl | rfl : h = 0 ∨ h = 1 := by omega
      · rfl
      · rfl

/-- The INIT state of a component: its elements read as 0, all others as before. -/
theorem extInit_get (xfam : Word) (ext : RegFile) (k : Nat) :
    regGet (extInit xfam ext) k = if bit xfam (extComponent k) then 0 else regGet ext k := by
  rw [regGet, extInit, tblGet_filter ext (fun k => !bit xfam (extComponent k)) k]
  cases bit xfam (extComponent k) <;> rfl

/-! ## The VCPU (R549 steps 1 and 2) -/

section
variable (p : Tdvps) (tsc : Word) (tick : Nat)

@[simp] theorem afterVmcall_gprs : (p.afterVmcall tsc tick).gprs = p.gprs := rfl

@[simp] theorem afterVmcall_vcpuState : (p.afterVmcall tsc tick).vcpuState = .readyTdvmcall := rfl

@[simp] theorem afterVmcall_lastExitTsc : (p.afterVmcall tsc tick).lastExitTsc = tsc := rfl

theorem afterVmcall_rip : (p.afterVmcall tsc tick).vm Vmcs.rip = p.vm Vmcs.rip + 4 :=
  (setVm_vm p Vmcs.rip Vmcs.rip (p.vm Vmcs.rip + w64 tdcallLength)).trans (if_pos rfl)

end

/-! ## The TD exit -/

/-- The host's logical processor after TDG.VP.VMCALL (R549 step 4). -/
def Lp.afterVmcall (l : Lp) (c : Tdcs) (p : Tdvps) (seamcallLength : Nat) : Lp :=
  { l.afterExit c p.xfam with
    gprs := vmcallGprs p.gprs, rip := l.rip + w64 seamcallLength
    ext := passXmmOut p.gprs.rcx p.xbuff (extInit (p.xfam ||| c.xfam) l.ext) (List.range 16) }

/-- The state after TDG.VP.VMCALL of the VCPU `v` of the TD `td`. -/
def State.afterVmcall (s : State) (v td : Nat) (c : Tdcs) (p : Tdvps) : State :=
  { (s.modVp v fun q => q.afterVmcall s.tsc s.tick).modTdcs td fun c => c.unref p.vcpuEpoch with
    locks := releaseEntryLocks s.locks v td }.modLp fun l => l.afterVmcall c p s.plat.seamcallLength

section
variable {s : State} {v td : Nat} {t : Tdr} {c : Tdcs} {p : Tdvps}

/-- R549 with the reserved bits of the mask clear and the locks of the entry held. -/
theorem vpVmcall_exits (runs : RunsGuest s v td t c p) (clear : p.gprs.rcx &&& vmcallReserved = 0)
    (held : entryLocksHeld s.locks v td = true) :
    vpVmcall (s.tdcallEntered v) v = .ok ((s.tdcallEntered v).afterVmcall v td c (recordExit p tdcallExit)) := by
  simp only [vpVmcall, openGuest_ok runs, guestAnswer_goesOn, recordExit_gprs, clear, beq_self_eq_true, greq_true,
    State.tdcallEntered_locks, held, guestPure_answers]
  rfl

theorem afterVmcall_lp (executes : s.curLp < s.lps.length) :
    (s.afterVmcall v td c p).lp = s.lp.afterVmcall c p s.plat.seamcallLength := modLp_lp_of _ executes rfl rfl

theorem afterVmcall_vp {q : Tdvps} (vcpu : tblGet s.vps v = some q) :
    tblGet (s.afterVmcall v td c p).vps v = some (q.afterVmcall s.tsc s.tick) := modVp_get _ vcpu

theorem afterVmcall_otherVp {w : Nat} (other : w ≠ v) :
    tblGet (s.afterVmcall v td c p).vps w = tblGet s.vps w := modVp_get_other s _ other

theorem afterVmcall_tdcs {d : Tdcs} (tdcs : tblGet s.tdcss td = some d) :
    tblGet (s.afterVmcall v td c p).tdcss td = some (d.unref p.vcpuEpoch) := modTdcs_get _ tdcs

end

/-! ## The obligation -/

/-- Settles O41: the function answers the TD exit (`vpVmcall_exits`), of which each part is read off: the general
registers (`vmcallGprs_get`), the XMM registers (`passXmmOut_xmm`), the rest of the extended state (`passXmmOut_other`,
`extInit_get`), the VCPU and the TDCS. -/
theorem vmcallReturnsToHost : Obligations.VmcallReturnsToHost := by
  intro s v td t c p calls clear held
  obtain ⟨executes, _, _, _, vcpu, _, _, tdcs, _⟩ := calls.1
  have lp := afterVmcall_lp (s := s.tdcallEntered v) (v := v) (td := td) (c := c) (p := recordExit p tdcallExit) executes
  refine ⟨_, exec_guest_ok rfl calls (vpVmcall_exits calls.1 clear held), rfl, ?_⟩
  rw [lp]
  refine ⟨rfl, vmcallGprs_rax _, vmcallGprs_rcx _, fun r notRax notRcx => vmcallGprs_get p.gprs notRax notRcx,
    fun i h hi hh => passXmmOut_xmm _ _ _ (List.mem_range.2 hi) hh, fun k other => ?_, rfl, rfl, rfl, rfl,
    ⟨_, afterVmcall_vp (tdcallEntered_get vcpu), afterVmcall_vcpuState _ _ _, afterVmcall_lastExitTsc _ _ _,
      afterVmcall_gprs _ _ _, ?_⟩, afterVmcall_tdcs tdcs, fun w hw => ?_, rfl, rfl⟩
  · exact (passXmmOut_other _ _ _ fun i hi h hh => other i h (List.mem_range.1 hi) hh).trans (extInit_get _ _ k)
  · rw [afterVmcall_rip, recordExit_vm _ _ _ (by decide)]
  · exact (afterVmcall_otherVp hw).trans (modVp_get_other s _ hw)

end Sys2Proof.Machine
end

section
/-! PROOFS. Decoding and encoding (O42, O43, O44; 30_encoding.md rules R320 and R328): the leaf tables name each function
at its own leaf number and nothing else, and the eight bytes of RAX and its value determine each other. -/

namespace Sys2Proof

open Machine

/-! ## The leaf tables -/

/-- Every function stands in the table of its side, at its leaf number. -/
theorem leafFound : ∀ i : Instr, Laws.LeafFound.Statement i
  | .tdhVpEnter => Laws.LeafFound.tdhVpEnter
  | .tdhMngAddcx => Laws.LeafFound.tdhMngAddcx
  | .tdhMemPageAdd => Laws.LeafFound.tdhMemPageAdd
  | .tdhMemSeptAdd => Laws.LeafFound.tdhMemSeptAdd
  | .tdhVpAddcx => Laws.LeafFound.tdhVpAddcx
  | .tdhMemPageRelocate => Laws.LeafFound.tdhMemPageRelocate
  | .tdhMemPageAug => Laws.LeafFound.tdhMemPageAug
  | .tdhMemRangeBlock => Laws.LeafFound.tdhMemRangeBlock
  | .tdhMngKeyConfig => Laws.LeafFound.tdhMngKeyConfig
  | .tdhMngCreate => Laws.LeafFound.tdhMngCreate
  | .tdhVpCreate => Laws.LeafFound.tdhVpCreate
  | .tdhMngRd => Laws.LeafFound.tdhMngRd
  | .tdhMemRd => Laws.LeafFound.tdhMemRd
  | .tdhMngWr => Laws.LeafFound.tdhMngWr
  | .tdhMemWr => Laws.LeafFound.tdhMemWr
  | .tdhMemPageDemote => Laws.LeafFound.tdhMemPageDemote
  | .tdhMrExtend => Laws.LeafFound.tdhMrExtend
  | .tdhMrFinalize => Laws.LeafFound.tdhMrFinalize
  | .tdhVpFlush => Laws.LeafFound.tdhVpFlush
  | .tdhMngVpflushdone => Laws.LeafFound.tdhMngVpflushdone
  | .tdhMngKeyFreeid => Laws.LeafFound.tdhMngKeyFreeid
  | .tdhMngInit => Laws.LeafFound.tdhMngInit
  | .tdhVpInit => Laws.LeafFound.tdhVpInit
  | .tdhMemPagePromote => Laws.LeafFound.tdhMemPagePromote
  | .tdhPhymemPageRdmd => Laws.LeafFound.tdhPhymemPageRdmd
  | .tdhMemSeptRd => Laws.LeafFound.tdhMemSeptRd
  | .tdhVpRd => Laws.LeafFound.tdhVpRd
  | .tdhMngKeyReclaimid => Laws.LeafFound.tdhMngKeyReclaimid
  | .tdhPhymemPageReclaim => Laws.LeafFound.tdhPhymemPageReclaim
  | .tdhMemPageRemove => Laws.LeafFound.tdhMemPageRemove
  | .tdhMemSeptRemove => Laws.LeafFound.tdhMemSeptRemove
  | .tdhSysKeyConfig => Laws.LeafFound.tdhSysKeyConfig
  | .tdhSysInfo => Laws.LeafFound.tdhSysInfo
  | .tdhSysInit => Laws.LeafFound.tdhSysInit
  | .tdhSysLpInit => Laws.LeafFound.tdhSysLpInit
  | .tdhSysTdmrInit => Laws.LeafFound.tdhSysTdmrInit
  | .tdhMemTrack => Laws.LeafFound.tdhMemTrack
  | .tdhMemRangeUnblock => Laws.LeafFound.tdhMemRangeUnblock
  | .tdhPhymemCacheWb => Laws.LeafFound.tdhPhymemCacheWb
  | .tdhPhymemPageWbinvd => Laws.LeafFound.tdhPhymemPageWbinvd
  | .tdhVpWr => Laws.LeafFound.tdhVpWr
  | .tdhSysLpShutdown => Laws.LeafFound.tdhSysLpShutdown
  | .tdhSysConfig => Laws.LeafFound.tdhSysConfig
  | .tdgVpVmcall => Laws.LeafFound.tdgVpVmcall
  | .tdgVpInfo => Laws.LeafFound.tdgVpInfo
  | .tdgMrRtmrExtend => Laws.LeafFound.tdgMrRtmrExtend
  | .tdgVpVeinfoGet => Laws.LeafFound.tdgVpVeinfoGet
  | .tdgMrReport => Laws.LeafFound.tdgMrReport
  | .tdgVpCpuidveSet => Laws.LeafFound.tdgVpCpuidveSet
  | .tdgMemPageAccept => Laws.LeafFound.tdgMemPageAccept
  | .tdgVmRd => Laws.LeafFound.tdgVmRd
  | .tdgVmWr => Laws.LeafFound.tdgVmWr

theorem wellFormed_iff_side (i : Instr) (side : Side) : i.wellFormed side = true ↔ side = i.side := (leafFound i).2 side

/-- What a search of a table finds is the instruction of one of its rows. -/
theorem mem_of_findLeaf {rows : List LeafRow} {n : Nat} {i : Instr} (h : findLeaf rows n = some i) :
    (⟨n, i⟩ : LeafRow) ∈ rows := by
  induction rows with
  | nil => cases h
  | cons r rows ih =>
    rw [findLeaf] at h
    split at h
    · cases h
      subst n
      exact List.mem_cons_self
    · exact List.mem_cons_of_mem _ (ih h)

/-- The rows of a side's table hold that side's functions with their own leaf numbers. -/
theorem leafRows_own (side : Side) : ∀ r ∈ leafRows side, r.instr.side = side ∧ r.instr.leaf = r.leaf := by
  cases side <;> decide

/-- A word of RAX decodes to the function of the side whose leaf number it is. -/
theorem decode_eq_ok {side : Side} {rax : Word} {i : Instr} :
    decode side rax = .ok i ↔ i.wellFormed side = true ∧ rax.toNat = i.leaf := by
  rw [wellFormed_iff_side]
  constructor
  · intro h
    unfold decode at h
    split at h
    · rename_i found
      cases h
      obtain ⟨own, leaf⟩ := leafRows_own side _ (mem_of_findLeaf found)
      exact ⟨own.symm, leaf.symm⟩
    · cases h
  · rintro ⟨rfl, leaf⟩
    rw [decode, leaf, (leafFound i).1]

/-! ## The bytes of RAX -/

theorem natBytes_length (n v : Nat) : (natBytes n v).length = n := by
  induction n generalizing v with
  | zero => rfl
  | succ n ih => simp [natBytes, ih]

theorem leNat_natBytes (n v : Nat) : leNat (natBytes n v) = v % 256 ^ n := by
  induction n generalizing v with
  | zero => simp [natBytes, leNat, Nat.mod_one]
  | succ n ih =>
    rw [natBytes, leNat, ih, Nat.pow_succ' (m := 256), Nat.mod_mul (x := v) (a := 256)]
    rfl

theorem natBytes_leNat (bytes : List Byte) : natBytes bytes.length (leNat bytes) = bytes := by
  induction bytes with
  | nil => rfl
  | cons b bytes ih =>
    have low : BitVec.ofNat 8 (b.toNat + 256 * leNat bytes) = b := by
      apply BitVec.eq_of_toNat_eq
      rw [BitVec.toNat_ofNat]
      have := b.isLt
      omega
    have high : (b.toNat + 256 * leNat bytes) / 256 = leNat bytes := by
      have := b.isLt
      omega
    rw [List.length_cons, leNat, natBytes, low, high, ih]

theorem leNat_lt (bytes : List Byte) : leNat bytes < 256 ^ bytes.length := by
  induction bytes with
  | nil => simp [leNat]
  | cons b bytes ih =>
    have := b.isLt
    rw [leNat, List.length_cons, Nat.pow_succ']
    omega

theorem leaf_lt (i : Instr) : i.leaf < 256 ^ 8 := by
  cases i <;> decide

/-- Eight bytes are the encoding of the function whose leaf number is their value. -/
theorem leNat_eq_leaf {bytes : List Byte} (i : Instr) (h : bytes.length = 8) :
    leNat bytes = i.leaf ↔ bytes = encodeBytes i := by
  constructor
  · intro value
    rw [encodeBytes, ← value, ← h, natBytes_leNat]
  · rintro rfl
    rw [encodeBytes, leNat_natBytes, Nat.mod_eq_of_lt (leaf_lt i)]

/-! ## The obligations -/

/-- Settles O43: RAX is the value of the first eight bytes, which decodes to the function whose leaf number it is
(`decode_eq_ok`), and the bytes are that function's encoding (`leNat_eq_leaf`). -/
theorem decodeInvertsEncode : Obligations.DecodeInvertsEncode := by
  intro side bytes i rest
  have encoded : (encodeBytes i).length = 8 := natBytes_length 8 _
  by_cases short : bytes.length < 8
  · rw [decodeBytes, if_pos short]
    refine iff_of_false nofun ?_
    rintro ⟨-, rfl⟩
    rw [List.length_append] at short
    omega
  · have first : (bytes.take 8).length = 8 := by simpa using Nat.not_lt.1 short
    have value : (BitVec.ofNat 64 (leNat (bytes.take 8)) : Word).toNat = leNat (bytes.take 8) := by
      have := leNat_lt (bytes.take 8)
      rw [first] at this
      exact Nat.mod_eq_of_lt (by omega)
    have decoded : decodeBytes side bytes = .ok (i, rest) ↔
        decode side (BitVec.ofNat 64 (leNat (bytes.take 8))) = .ok i ∧ bytes.drop 8 = rest := by
      rw [decodeBytes, if_neg short]
      split <;> simp_all
    have split8 : bytes = encodeBytes i ++ rest ↔ bytes.take 8 = encodeBytes i ∧ bytes.drop 8 = rest := by
      rw [← encoded]
      constructor
      · rintro rfl
        exact ⟨List.take_left, List.drop_left⟩
      · rintro ⟨h1, h2⟩
        rw [← h1, ← h2, List.take_append_drop]
    rw [decoded, decode_eq_ok, value, leNat_eq_leaf i first, split8, and_assoc]

/-- Settles O44: eight entries of the leaf tables, and what is no entry of them. -/
theorem decodesLeafNumbers : Obligations.DecodesLeafNumbers := by
  unfold Obligations.DecodesLeafNumbers
  decide

namespace Machine

/-- A call with no VM exit due before it runs the function that RAX selects. -/
theorem callStep_decodes {s : State} {i : Instr} (first : s.boundaryFirst = none)
    (h : decode s.side s.callRax = .ok i) : callStep s = exec i s := by
  simp only [callStep, first, h]

/-- A call with no VM exit due before it whose RAX selects none. -/
theorem callStep_unsupported {s : State} {e : DecodeError} (first : s.boundaryFirst = none)
    (h : decode s.side s.callRax = .error e) : callStep s = unsupportedCall s := by
  simp only [callStep, first, h]

/-- Settles O42: the label of the schedule, or its end, is a call of the current logical processor, before which no VM exit
is due. -/
theorem stepRunsDecoded : Obligations.StepRunsDecoded := by
  intro s first
  refine ⟨fun i empty h => ?_, fun e empty h => ?_, fun i rest call lp h => ?_, fun i h => (decode_eq_ok.1 h).1⟩
  · rw [step, empty]
    exact callStep_decodes (s := s.ticked) first h
  · rw [step, empty]
    exact callStep_unsupported (s := s.ticked) first h
  · have labelled : (Label.call s.curLp).wellFormed s = true := decide_eq_true lp
    simp only [step, call, labelled, if_true]
    exact callStep_decodes (s := { s.ticked with schedule := rest }) first h

end Machine

end Sys2Proof
end

section
/-! PROOFS. The functions on a TD's Secure EPT and pages on legal operands (O15 to O24, O26; 40_seamcall_mem.md rules R420 to
R432): what each group of functions opens with and which locks it leaves free, then the body of each function. -/

namespace Sys2Proof.Machine

open Safety

/-! ## Locks of pages -/

/-- The lock of a page's PAMT entry is one of the PAMT. -/
theorem pamtLock_isPamt (b level : Nat) : (pamtLock b level).isPamt = true := by
  match level with
  | 0 | 1 | _ + 2 => rfl

/-- The locks of a 4KB page operand leave the lock of a page that is not around it. -/
theorem PageLocked.sizedLock {l l' : Locks} {a b level : Nat} (h : PageLocked l l' a) (aligned : isAligned a 4096 = true)
    (small : level ≤ 2) (apart : b ≠ pageBase a level) :
    lockState l' (pamtLock b level) = lockState l (pamtLock b level) := by
  obtain rfl | rfl | rfl : level = 0 ∨ level = 1 ∨ level = 2 := by omega
  case inl =>
    rw [pageBase_of_aligned aligned] at apart
    exact h.pamt4k apart
  case inr.inl => exact h.other _ (by simp [pamtLock]) (by simpa [pamtLock] using apart) (by simp [pamtLock])
  case inr.inr => exact h.other _ (by simpa [pamtLock] using apart) (by simp [pamtLock]) (by simp [pamtLock])

/-- The Secure EPT lock is none of the PAMT. -/
theorem Acquired.sizedLock {l l' : Locks} {td b level : Nat} {m : LockMode} (h : Acquired l l' (.sept td) m) :
    lockState l' (pamtLock b level) = lockState l (pamtLock b level) :=
  h.other _ fun e => by simpa [e, LockId.isPamt] using pamtLock_isPamt b level

/-- Whether a lock can be acquired depends on its own state alone. -/
theorem canLock_congr {l l' : Locks} {id : LockId} {m : LockMode} (same : lockState l' id = lockState l id)
    (h : CanLock l id m) : CanLock l' id m := by
  cases m <;> simpa only [CanLock, same] using h

/-- The base of the 1GB block around a 2MB block. -/
theorem pageBase_pageBase (a : Nat) : pageBase (pageBase a 1) 2 = pageBase a 2 := by
  simp only [pageBase, pageBytes]
  omega

/-- The locks of the page of the size at which an address is assigned, in shared mode. -/
theorem lockPage_shared_ok {l : Locks} {a level : Nat} (id : Nat) (small : level ≤ 2) (aligned : isAligned a 4096 = true)
    (block1g : lockState l (.pamt1g (pageBase a 2)) ≠ some .exclusive)
    (block2m : lockState l (.pamt2m (pageBase a 1)) ≠ some .exclusive)
    (page4k : lockState l (.pamt4k a) ≠ some .exclusive) :
    ∃ l', lockPage l (pageBase a level) level .shared .shared id = .ok l' := by
  obtain rfl | rfl | rfl : level = 0 ∨ level = 1 ∨ level = 2 := by omega
  case inl =>
    rw [pageBase_of_aligned aligned]
    obtain ⟨l', e, -⟩ := lockPage4k_ok (m := .shared) id block1g block2m page4k
    exact ⟨l', e⟩
  case inr.inl =>
    obtain ⟨l1, e1, a1⟩ := lockOp_ok (m := .shared) id block1g
    obtain ⟨l2, e2, -⟩ := lockOp_ok (m := .shared) id (a1.sharable block2m)
    exact ⟨l2, by simp only [lockPage, pageBase_pageBase, e1, e2, answer_goesOn]⟩
  case inr.inr =>
    obtain ⟨l', e, -⟩ := lockOp_ok (m := .shared) id block1g
    exact ⟨l', e⟩

/-! ## The opening of the functions -/

theorem mapOperand_levels {w : Word} {c : Tdcs} {lmin lmax level gpa : Nat} (h : MapOperand w c lmin lmax level gpa) :
    lmin ≤ level ∧ level ≤ lmax := by
  obtain ⟨-, -, -, -, least, greatest, -⟩ := h
  exact ⟨least, greatest⟩

theorem opaqueOperand_aligned {s : State} {pa : Word} {align : Nat} (h : OpaqueOperand s pa align) :
    isAligned pa.toNat align = true := h.2.1

section
variable {s : State} {t : Tdr} {c : Tdcs} {lmin lmax level gpa : Nat} {p : SeptPos}

/-- A function on a TD's tree that takes no new page: what it opens with, and the locks of pages apart from the TDR page are
as they were. -/
theorem openTree_ok {m : LockMode} (ht : TdOperand s (s.hreg .rdx) t c)
    (hm : MapOperand (s.hreg .rcx) c lmin lmax level gpa) (page : PageSharable s (s.hreg .rdx).toNat)
    (tree : CanLock s.locks (.sept (s.hreg .rdx).toNat) m) (walk : septWalk s c t.hkid gpa (some level) = .ok p) :
    ∃ l l', openMap s .shared lmin lmax = .ok (l, (s.hreg .rdx).toNat, t, c, level, gpa) ∧
      lockWalk s l (s.hreg .rdx).toNat t c gpa (some level) m = .ok (l', p) ∧
      ∀ b n, n ≤ 2 → b ≠ pageBase (s.hreg .rdx).toNat n →
        lockState l' (pamtLock b n) = lockState s.locks (pamtLock b n) := by
  obtain ⟨block1g, block2m, page4k⟩ := page
  obtain ⟨l, opened, locked⟩ := openMap_ok (m := .shared) ht hm block1g block2m page4k
  obtain ⟨l', walked, acquired⟩ := lockWalk_ok (m := m) (l := l)
    (canLock_congr (locked.notPamt (j := .sept (s.hreg .rdx).toNat) rfl) tree) walk
  exact ⟨l, l', opened, walked, fun b n small apart =>
    acquired.sizedLock.trans (locked.sizedLock (opaqueOperand_aligned ht.1) small apart)⟩

/-- A function on a TD's tree that takes a free page: what it opens with, and the locks of pages apart from the TDR page and
the new page are as they were. -/
theorem openTreeFree_ok {m : LockMode} {n : Nat} (ht : TdOperand s (s.hreg .rdx) t c)
    (hm : MapOperand (s.hreg .rcx) c lmin lmax level gpa) (block1g : Sharable s (.pamt1g (pageBase (s.hreg .rdx).toNat 2)))
    (block2m : Sharable s (.pamt2m (pageBase (s.hreg .rdx).toNat 1))) (page4k : CanLock s.locks (.pamt4k (s.hreg .rdx).toNat) m)
    (tree : Takable s (.sept (s.hreg .rdx).toNat)) (new : FreePage s (s.hreg .r8) n (s.hreg .rdx).toNat) (small : n ≤ 1)
    (walk : septWalk s c t.hkid gpa (some level) = .ok p) :
    ∃ l l1 l2, openMap s m lmin lmax = .ok (l, (s.hreg .rdx).toNat, t, c, level, gpa) ∧
      takeFreePage s l Operand.r8 (s.hreg .r8) n = .ok (l1, (s.hreg .r8).toNat) ∧
      lockWalk s l1 (s.hreg .rdx).toNat t c gpa (some level) .exclusive = .ok (l2, p) ∧
      (n = 0 → ∀ b k, k ≤ 2 → b ≠ pageBase (s.hreg .rdx).toNat k → b ≠ pageBase (s.hreg .r8).toNat k →
        lockState l2 (pamtLock b k) = lockState s.locks (pamtLock b k)) := by
  obtain ⟨l, opened, locked⟩ := openMap_ok (m := m) ht hm block1g block2m page4k
  obtain ⟨l1, taken, others, newLocked⟩ := takeFreePage_ok Operand.r8 locked new small
  obtain ⟨l2, walked, acquired⟩ := lockWalk_ok (m := .exclusive) (l := l1) ((others _ rfl).trans tree) walk
  refine ⟨l, l1, l2, opened, taken, walked, fun zero b k hk apart apartNew => ?_⟩
  subst zero
  exact acquired.sizedLock.trans (((newLocked rfl).sizedLock (opaqueOperand_aligned new.1) hk apartNew).trans
    (locked.sizedLock (opaqueOperand_aligned ht.1) hk apart))

/-- TLB tracking of a page whose PAMT entries hold no poison. -/
theorem reqTracked_ok {a n : Nat} (readable : pamtReadable s a = true)
    (tracked : tlbTrackingDone c (pamtAt s a n).bepoch = true) : reqTracked s c a n = .ok () := by
  simp only [reqTracked, reqPamt, readable, tracked, req_true, answer_goesOn]

end

/-! ## Entry states -/

theorem isBlocked_iff (x : SeptState) : x.isBlocked = true ↔ x = .blocked ∨ x = .pendingBlocked := by
  cases x <;> decide

theorem unblock_eq (x : SeptState) : x.unblock = if x = .blocked then .present else .pending := by
  cases x <;> rfl

theorem block_eq (x : SeptState) : x.block = if x = .present then .blocked else .pendingBlocked := by
  cases x <;> rfl

/-! ## TDH.MEM.SEPT.ADD, TDH.MEM.SEPT.RD and TDH.MEM.SEPT.REMOVE -/

/-- Settles O15: the checks pass (`openTreeFree_ok`); RCX and RDX are the new non-leaf entry in the form of R381 and R382. -/
theorem memSeptAddCompletes : Obligations.MemSeptAddCompletes := by
  intro s t c level gpa p ready ht tree hm new walk free
  obtain ⟨⟨block1g, block2m, page4k⟩, sept⟩ := tree
  obtain ⟨l, l1, l2, opened, taken, walked, -⟩ :=
    openTreeFree_ok (m := .shared) ht hm block1g block2m page4k sept new (by simp) walk
  rw [exec_host .tdhMemSeptAdd rfl s nofun]
  refine hostCall_ready ready (withOuts_eq_ok.2 ?_)
  simp only [memSeptAdd, opened, taken, walked, free, beq_self_eq_true, req_true, answer_goesOn, pure_answers]
  rfl

/-- Settles O16: TDH.MEM.SEPT.RD goes no further than the walk, TDH.PHYMEM.PAGE.RDMD no further than the locks. -/
theorem readingFunctionsComplete : Obligations.ReadingFunctionsComplete := by
  refine ⟨fun s t c level gpa p ready ht page sept hm walk => ?_, fun s ready operand page => ?_⟩
  · obtain ⟨l, l', opened, walked, -⟩ := openTree_ok (m := .shared) ht hm page sept walk
    rw [exec_host .tdhMemSeptRd rfl s nofun]
    refine hostCall_ready ready (withOuts_eq_ok.2 ?_)
    simp only [memSeptRd, opened, walked, answer_goesOn, pure_answers]
    rfl
  · obtain ⟨block1g, block2m, page4k⟩ := page
    obtain ⟨l, locked⟩ := lockPage_shared_ok Operand.rcx (pamtWalk_level_le s (s.hreg .rcx).toNat)
      (opaqueOperand_aligned operand) block1g block2m page4k
    rw [exec_host .tdhPhymemPageRdmd rfl s nofun]
    refine hostCall_ready ready (withOuts_eq_ok.2 ?_)
    simp only [phymemPageRdmd, checkHpa_ok _ operand, locked, answer_goesOn, pure_answers]

/-- Settles O17: the empty page's own lock is free, being apart from the TDR page. -/
theorem memSeptRemoveCompletes : Obligations.MemSeptRemoveCompletes := by
  intro s t c level gpa p ready ht tree hm walk nonLeaf blocked own readable apart tracked page empty
  obtain ⟨l, l', opened, walked, locks⟩ := openTree_ok (m := .exclusive) ht hm tree.1 tree.2 walk
  have free : CanLock l' (.pamt4k p.entry.hpa) .exclusive :=
    (locks p.entry.hpa 0 (by simp) (by rwa [pageBase_of_aligned (opaqueOperand_aligned ht.1)])).trans own
  obtain ⟨l2, taken, -⟩ := lockOp_ok Operand.rcx free
  rw [exec_host .tdhMemSeptRemove rfl s nofun]
  refine hostCall_ready ready (withOuts_eq_ok.2 ?_)
  simp only [memSeptRemove, opened, walked, nonLeaf, blocked, taken, reqTracked_ok readable tracked, page, empty,
    Bool.not_false, beq_self_eq_true, req_true, answer_goesOn, pure_answers]
  rfl

/-! ## TDH.MEM.PAGE.* -/

/-- Settles O18: the function locks the TDR page exclusively, and reads its source after all checks. -/
theorem memPageAddCompletes : Obligations.MemPageAddCompletes := by
  intro s t c gpa p ready ht page sept hm finalized new source walk free readable
  obtain ⟨block1g, block2m, page4k⟩ := page
  obtain ⟨l, l1, l2, opened, taken, walked, -⟩ :=
    openTreeFree_ok (m := .exclusive) ht hm block1g block2m page4k sept new (by simp) walk
  rw [exec_host .tdhMemPageAdd rfl s nofun]
  refine hostCall_ready ready (withOuts_eq_ok.2 ?_)
  simp only [memPageAdd, opened, finalized, taken, checkShared_ok _ source, walked, free, readShared_ok readable,
    Bool.not_false, beq_self_eq_true, req_true, answer_goesOn, pure_answers]
  rfl

/-- Settles O19: a build that refuses a TD not yet finalised has a finalised one here. -/
theorem memPageAugCompletes : Obligations.MemPageAugCompletes := by
  intro s t c level gpa p ready ht tree hm finalized new walk free
  obtain ⟨⟨block1g, block2m, page4k⟩, sept⟩ := tree
  obtain ⟨l, l1, l2, opened, taken, walked, -⟩ :=
    openTreeFree_ok (m := .shared) ht hm block1g block2m page4k sept new (mapOperand_levels hm).2 walk
  have build : (!s.plat.augNeedsFinalized || c.finalized) = true := by
    cases needs : s.plat.augNeedsFinalized
    · rfl
    · simp [finalized needs]
  rw [exec_host .tdhMemPageAug rfl s nofun]
  refine hostCall_ready ready (withOuts_eq_ok.2 ?_)
  simp only [memPageAug, opened, build, taken, walked, free, beq_self_eq_true, req_true, answer_goesOn, pure_answers]
  rfl

/-- Settles O20: the large page is apart from the TDR page and from the new page, so its lock is free; its parts take the
state that it would unblock to. -/
theorem memPageDemoteCompletes : Obligations.MemPageDemoteCompletes := by
  intro s t c level gpa p ready ht tree hm new walk leaf blocked own readable apart apartNew tracked
  obtain ⟨⟨block1g, block2m, page4k⟩, sept⟩ := tree
  obtain ⟨l, l1, l2, opened, taken, walked, locks⟩ :=
    openTreeFree_ok (m := .shared) ht hm block1g block2m page4k sept new (by simp) walk
  have free : CanLock l2 (pamtLock p.entry.hpa level) .exclusive :=
    (locks rfl p.entry.hpa level (mapOperand_levels hm).2 apart apartNew).trans own
  obtain ⟨l3, pageLocked, -⟩ := lockOp_ok Operand.rcx free
  rw [exec_host .tdhMemPageDemote rfl s nofun]
  refine hostCall_ready ready (withOuts_eq_ok.2 ?_)
  simp only [memPageDemote, opened, taken, walked, leaf, (isBlocked_iff _).2 blocked, pageLocked,
    reqTracked_ok readable tracked, unblock_eq, req_true, answer_goesOn, pure_answers]
  rfl

/-- The 512 entries of a page that map consecutive pages of an aligned large page (R423 step 10). -/
theorem promotable_of_consecutive {s : State} {page level : Nat}
    (aligned : isAligned (septAt s page).hpa (pageBytes level) = true)
    (maps : ∀ i, i < 512 →
      septAt s (page + 8 * i) = ⟨.present, true, (septAt s page).hpa + i * pageBytes (level - 1)⟩) :
    promotable s page level = true := by
  rw [promotable, aligned, Bool.true_and, List.all_eq_true]
  intro i hi
  simp [maps i (List.mem_range.1 hi)]

/-- The lock of a large page is not that of a 4KB page. -/
theorem pamtLock_ne_pamt4k {b level a : Nat} (large : 1 ≤ level) : pamtLock b level ≠ .pamt4k a := by
  match level with
  | 1 | _ + 2 => simp [pamtLock]

/-- Settles O21: the Secure EPT page and the merged page are apart from the TDR page, and from each other by their sizes. -/
theorem memPagePromoteCompletes : Obligations.MemPagePromoteCompletes := by
  intro s t c level gpa p big ready ht tree hm walk nonLeaf blocked own readable apart tracked page isBig bigOwn
    bigReadable aligned bigApart maps
  subst isBig
  obtain ⟨l, l', opened, walked, locks⟩ := openTree_ok (m := .exclusive) ht hm tree.1 tree.2 walk
  have free : CanLock l' (.pamt4k p.entry.hpa) .exclusive :=
    (locks p.entry.hpa 0 (by simp) (by rwa [pageBase_of_aligned (opaqueOperand_aligned ht.1)])).trans own
  obtain ⟨l2, taken, acquired⟩ := lockOp_ok Operand.rcx free
  have bigFree : CanLock l2 (pamtLock (septAt s p.entry.hpa).hpa level) .exclusive :=
    (acquired.other _ (pamtLock_ne_pamt4k (mapOperand_levels hm).1)).trans
      ((locks _ _ (mapOperand_levels hm).2 bigApart).trans bigOwn)
  obtain ⟨l3, bigTaken, -⟩ := lockOp_ok Operand.rcx bigFree
  rw [exec_host .tdhMemPagePromote rfl s nofun]
  refine hostCall_ready ready (withOuts_eq_ok.2 ?_)
  simp only [memPagePromote, opened, walked, nonLeaf, blocked, taken, reqTracked_ok readable tracked, page,
    promotable_of_consecutive aligned maps, bigTaken, reqPamt, bigReadable, Bool.not_false, beq_self_eq_true, req_true,
    answer_goesOn, pure_answers]
  rfl

/-- Settles O22: both outcomes share the checks; only the content of a page that was not pending is copied. -/
theorem memPageRelocateCompletes : Obligations.MemPageRelocateCompletes := by
  intro s t c gpa p ready ht tree hm new walk leaf own readable apart apartNew tracked
  obtain ⟨⟨block1g, block2m, page4k⟩, sept⟩ := tree
  obtain ⟨l, l1, l2, opened, taken, walked, locks⟩ :=
    openTreeFree_ok (m := .shared) ht hm block1g block2m page4k sept new (by simp) walk
  have free : CanLock l2 (.pamt4k p.entry.hpa) .exclusive :=
    (locks rfl p.entry.hpa 0 (by simp) (by rwa [pageBase_of_aligned (opaqueOperand_aligned ht.1)])
      (by rwa [pageBase_of_aligned (opaqueOperand_aligned new.1)])).trans own
  obtain ⟨l3, oldLocked, -⟩ := lockOp_ok Operand.rcx free
  refine ⟨fun blocked page => ?_, fun blocked => ?_⟩
  · have copied : copyPage s t.hkid p.entry.hpa (s.hreg .r8).toNat true =
        .ok (writeDirect s t.hkid (s.hreg .r8).toNat (readBytes s t.hkid p.entry.hpa 4096)) := by
      have clean : (!poisoned s t.hkid p.entry.hpa 4096) = true := page
      simp only [copyPage, readPage, clean, req_true, answer_goesOn, pure_answers, if_true]
    rw [exec_host .tdhMemPageRelocate rfl s nofun]
    refine hostCall_ready ready (withOuts_eq_ok.2 ?_)
    simp only [memPageRelocate, opened, taken, walked, leaf, blocked, bne_iff_ne.2 apartNew, oldLocked,
      reqTracked_ok readable tracked, (isBlocked_iff _).2 (.inl rfl), copied, Bool.and_self, beq_self_eq_true, req_true,
      answer_goesOn, pure_answers]
    rfl
  · rw [exec_host .tdhMemPageRelocate rfl s nofun]
    refine hostCall_ready ready (withOuts_eq_ok.2 ?_)
    simp only [memPageRelocate, opened, taken, walked, leaf, blocked, bne_iff_ne.2 apartNew, oldLocked,
      reqTracked_ok readable tracked, (isBlocked_iff _).2 (.inr rfl), copyPage, Bool.and_self, req_true,
      answer_goesOn, pure_answers]
    rfl

/-- Settles O23: the page's own lock, whatever its size, is free, the page being apart from the TDR page. -/
theorem memPageRemoveCompletes : Obligations.MemPageRemoveCompletes := by
  intro s t c level gpa p ready ht tree hm walk leaf blocked own readable apart tracked
  obtain ⟨l, l', opened, walked, locks⟩ := openTree_ok (m := .exclusive) ht hm tree.1 tree.2 walk
  have free : CanLock l' (pamtLock p.entry.hpa level) .exclusive :=
    (locks p.entry.hpa level (mapOperand_levels hm).2 apart).trans own
  obtain ⟨l2, taken, -⟩ := lockOp_ok Operand.rcx free
  rw [exec_host .tdhMemPageRemove rfl s nofun]
  refine hostCall_ready ready (withOuts_eq_ok.2 ?_)
  simp only [memPageRemove, opened, walked, leaf, (isBlocked_iff _).2 blocked, taken, reqTracked_ok readable tracked,
    req_true, answer_goesOn, pure_answers]
  rfl

/-! ## TDH.MEM.RANGE.BLOCK, TDH.MEM.RANGE.UNBLOCK and TDH.MEM.TRACK -/

theorem blockLoses_iff (s : State) (p : SeptPos) :
    blockLoses s p = true ↔
      s.raceLost = true ∧ p.entry.state = .pending ∧ lockState s.locks (.septEntry p.addr) ≠ none := by
  simp only [blockLoses, Bool.and_eq_true, beq_iff_eq, Option.isSome_iff_ne_none, and_assoc]

/-- R426 once the tree is locked and the entry, neither free nor blocked, is found: the race decides. -/
theorem memRangeBlock_eq {s : State} {l l' : Locks} {t : Tdr} {c : Tdcs} {level gpa : Nat} {p : SeptPos}
    (opened : openMap s .shared 0 4 = .ok (l, (s.hreg .rdx).toNat, t, c, level, gpa))
    (walked : lockWalk s l (s.hreg .rdx).toNat t c gpa (some level) .exclusive = .ok (l', p))
    (mapped : p.entry.state = .present ∨ p.entry.state = .pending) (readable : pamtReadable s p.entry.hpa = true) :
    memRangeBlock s =
      if blockLoses s p then .error (bad Status.operandBusy Operand.sept)
      else .ok (hostReturn
        ((s.setSept p.addr { p.entry with state := p.entry.state.block }).setBepoch p.entry.hpa p.mapsLevel c.tdEpoch)
        Status.success 0 memOuts) := by
  have notFree : (p.entry.state != .free) = true := by rcases mapped with h | h <;> rw [h] <;> rfl
  have notBlocked : (!p.entry.state.isBlocked) = true := by rcases mapped with h | h <;> rw [h] <;> rfl
  simp only [memRangeBlock, opened, walked, notFree, notBlocked, reqPamt, readable, req_true, answer_goesOn,
    pure_answers]
  cases blockLoses s p <;> rfl

/-- Settles O24: the three outcomes share the opening; TDH.MEM.RANGE.BLOCK loses the race or blocks the entry
(`memRangeBlock_eq`). -/
theorem memRangeBlockUnblockComplete : Obligations.MemRangeBlockUnblockComplete := by
  intro s t c level gpa p ready ht tree hm walk readable
  obtain ⟨l, l', opened, walked, -⟩ := openTree_ok (m := .exclusive) ht hm tree.1 tree.2 walk
  refine ⟨fun loses => ?_, fun mapped wins => ?_, fun blocked tracked => ?_⟩
  · rw [exec_host .tdhMemRangeBlock rfl s nofun, hostCall_reaches ready.1 (.inr ready.2)]
    dsimp only [hostBody]
    rw [memRangeBlock_eq opened walked (.inr loses.2.1) readable, if_pos ((blockLoses_iff s p).2 loses)]
    rfl
  · rw [exec_host .tdhMemRangeBlock rfl s nofun, hostCall_reaches ready.1 (.inr ready.2)]
    dsimp only [hostBody]
    rw [memRangeBlock_eq opened walked mapped readable, if_neg (mt (blockLoses_iff s p).1 wins), block_eq]
    rfl
  · rw [exec_host .tdhMemRangeUnblock rfl s nofun]
    refine hostCall_ready ready (withOuts_eq_ok.2 ?_)
    simp only [memRangeUnblock, opened, walked, (isBlocked_iff _).2 blocked,
      reqTracked_ok (n := p.mapsLevel) readable tracked, unblock_eq, req_true, answer_goesOn, pure_answers]
    rfl

/-- The count that TDH.MEM.TRACK tests is that of the other parity than TD_EPOCH's. -/
theorem refcount_previous (c : Tdcs) :
    c.refcount (c.tdEpoch.toNat + 1) = if c.tdEpoch.toNat % 2 = 0 then c.refcount1 else c.refcount0 := by
  have parity : (c.tdEpoch.toNat + 1) % 2 = 1 ↔ c.tdEpoch.toNat % 2 = 0 := by omega
  simp only [Tdcs.refcount, parity]

/-- R432 once the TDR page and the epoch are locked: the previous epoch's count decides. -/
theorem memTrack_eq {s : State} {t : Tdr} {c : Tdcs} (ht : TdOperand s (s.hreg .rcx) t c)
    (page : PageSharable s (s.hreg .rcx).toNat) (epoch : Takable s (.epoch (s.hreg .rcx).toNat)) :
    memTrack s =
      if c.refcount (c.tdEpoch.toNat + 1) = 0 then
        .ok (hostReturn (s.modTdcs (s.hreg .rcx).toNat fun c => { c with tdEpoch := c.tdEpoch + 1 }) Status.success 0 [])
      else .error (bad Status.previousTlbEpochBusy 0) := by
  obtain ⟨l, opened, locked⟩ := openTd_shared Operand.rcx ht page
  obtain ⟨l', taken, -⟩ := lockOp_ok (l := l) (id := .epoch (s.hreg .rcx).toNat) (m := .exclusive) Operand.tdEpoch
    ((locked.notPamt rfl).trans epoch)
  simp only [memTrack, opened, taken, answer_goesOn, pure_answers]
  by_cases none : c.refcount (c.tdEpoch.toNat + 1) = 0
  · rw [if_pos none, req_ok (beq_iff_eq.2 none)]
    rfl
  · rw [if_neg none, beq_false_of_ne none]
    rfl

/-- Settles O26: the body's one decision is `memTrack_eq`'s. -/
theorem memTrackAdvancesEpoch : Obligations.MemTrackAdvancesEpoch := by
  intro s t c calls sysReady ht block1g block2m page4k epoch previous
  have body := memTrack_eq ht ⟨block1g, block2m, page4k⟩ epoch
  rw [refcount_previous] at body
  refine ⟨fun none => ?_, fun some => ?_⟩
  · rw [exec_host .tdhMemTrack rfl s nofun]
    exact hostCall_ready ⟨calls, sysReady⟩ (body.trans (if_pos none))
  · rw [exec_host .tdhMemTrack rfl s nofun]
    exact hostCall_error calls (.inr sysReady) (body.trans (if_neg some))

end Sys2Proof.Machine
end

section
/-! PROOFS. The functions of module initialisation on legal states (O1, O4, O5, O6; 42_seamcall_phymem_sys.md rules R486 to
R490): the checks pass, and the state that each function answers is the one that its obligation writes out. -/

namespace Sys2Proof.Machine

open Safety

/-! ## The lock on the module's internal variables -/

/-- The lock on the module's internal variables, in a mode in which it can be taken. -/
theorem lockSys_ok {s : State} {m : LockMode} (free : CanLock s.locks .sys m) : ∃ l, lockSys s m = .ok l := by
  obtain ⟨l, taken⟩ := acquire_ok free
  exact ⟨l, by rw [lockSys, lockOr, taken.got, getOr_some]⟩

/-- The same lock, when another function holds it. -/
theorem lockSys_busy {s : State} (m : LockMode) (held : lockState s.locks .sys = some .exclusive) :
    lockSys s m = .error (bad Status.sysBusy 0) := by
  cases m <;> simp only [lockSys, lockOr, acquire, held, getOr_none]

/-! ## TDH.SYS.INIT and TDH.SYS.LP.INIT -/

/-- Two changes of the current logical processor, one after the other. -/
theorem modLp_modLp (s : State) (f g : Lp → Lp) : (s.modLp f).modLp g = s.modLp (g ∘ f) := by
  simp only [State.modLp, State.modLpAt, List.modify_modify_eq]

theorem platformCheckGlobal_ok {s : State} (bootNt4 : bit s.lp.miscEnable 22 = false)
    (arch : s.plat.archCapabilities &&& 0x16B = 0x16B) (platform : s.plat.platformOk = none) :
    platformCheckGlobal s = .ok () := by
  simp only [platformCheckGlobal, bootNt4, archCapabilitiesOk, arch, platform, Bool.not_false, beq_self_eq_true,
    req_true, answer_goesOn]

theorem platformCheckLp_ok {s : State} (bootNt4 : bit s.lp.miscEnable 22 = false)
    (arch : s.plat.archCapabilities &&& 0x16B = 0x16B) (tsc : s.lp.tscAdjust = s.sampledTscAdjust)
    (platform : tblGet s.plat.platformLpOk s.curLp = none) : platformCheckLp s = .ok () := by
  simp only [platformCheckLp, bootNt4, archCapabilitiesOk, arch, tsc, platform, Bool.not_false, beq_self_eq_true,
    req_true, answer_goesOn]

/-- Settles O1: steps 1 to 4 of both rules pass (`lockSys_ok`, `platformCheckGlobal_ok`, `platformCheckLp_ok`);
TDH.SYS.LP.INIT changes its logical processor in two steps (`modLp_modLp`). -/
theorem sysInitFunctionsComplete : Obligations.SysInitFunctionsComplete := by
  refine ⟨fun s calls sys pending rcx bootNt4 arch platform => ?_,
    fun s calls sys running initialised lpDone bootNt4 arch tsc platform => ?_⟩
  · obtain ⟨l, locked⟩ := lockSys_ok (s := s) (m := .exclusive) sys
    rw [exec_host .tdhSysInit rfl s nofun]
    refine hostCall_ok calls (.inl rfl) (withOuts_eq_ok.2 ?_)
    simp only [sysInit, notShutdown_ok (s := s) (by simp [pending]), locked, pending, rcx,
      platformCheckGlobal_ok bootNt4 arch platform, beq_self_eq_true, req_true, answer_goesOn, pure_answers]
    rfl
  · obtain ⟨l, locked⟩ := lockSys_ok (s := s) (m := .shared) sys
    rw [exec_host .tdhSysLpInit rfl s nofun]
    refine hostCall_ok calls (.inl rfl) (withOuts_eq_ok.2 ?_)
    simp only [sysLpInit, notShutdown_ok running, locked, bne_iff_ne.2 initialised, lpDone,
      platformCheckLp_ok bootNt4 arch tsc platform, modLp_modLp, Bool.not_false, req_true, answer_goesOn, pure_answers]
    rfl

/-! ## Drawing a key (R453 step 5, R487 step 3) -/

section
variable {s : State} (ket : Takable s (.ket s.pkg)) (entropy : s.entropyOk = true) (hkid : Nat) (done : Word)
  (owner : KeyOwner)
include ket entropy

/-- The first package to configure an HKID draws a fresh key. -/
theorem configureKey_first (first : ∀ k ∈ s.plat.packages, bit done k = false) :
    configureKey s hkid done owner =
      .ok { s with ket := tblSet s.ket (ketKey s.pkg hkid) ⟨owner, s.nextKey, true⟩, nextKey := s.nextKey + 1 } := by
  obtain ⟨l, locked, -⟩ := lockOp_ok (m := .exclusive) Operand.ket ket
  have unconfigured : s.plat.packages.find? (fun k => bit done k) = none :=
    List.find?_eq_none.2 fun k hk => by simp [first k hk]
  simp only [configureKey, locked, entropy, unconfigured, req_true, answer_goesOn, pure_answers]

/-- A later package receives the key of a package that has one. -/
theorem configureKey_later {k : Nat} (later : s.plat.packages.find? (fun j => bit done j) = some k) :
    configureKey s hkid done owner =
      .ok { s with ket := tblSet s.ket (ketKey s.pkg hkid) ⟨owner, (ketAt s k hkid).key, true⟩ } := by
  obtain ⟨l, locked, -⟩ := lockOp_ok (m := .exclusive) Operand.ket ket
  simp only [configureKey, locked, entropy, later, req_true, answer_goesOn, pure_answers]

end

/-- R487 once its checks have passed: the key is drawn, and the bitmap decides whether the module is ready. -/
theorem sysKeyConfig_ok {s s1 : State} (sys : Takable s .sys) (configured : s.sysState = .sysconfigDone)
    (here : bit s.pkgConfigBitmap s.pkg = false)
    (drawn : configureKey s s.globalHkid s.pkgConfigBitmap .module = .ok s1) :
    sysKeyConfig s =
      .ok (hostReturn
        { s1 with
          pkgConfigBitmap := s.pkgConfigBitmap ||| bitAt true s.pkg
          sysState := if coversPackages s.plat (s.pkgConfigBitmap ||| bitAt true s.pkg) then .sysReady
            else .sysconfigDone }
        Status.success 0 []) := by
  obtain ⟨l, locked⟩ := lockSys_ok (s := s) (m := .exclusive) sys
  simp only [sysKeyConfig, notShutdown_ok (s := s) (by simp [configured]), locked, configured, here, drawn,
    Bool.not_false, beq_self_eq_true, req_true, answer_goesOn, pure_answers]

/-- Settles O4: the checks pass (`sysKeyConfig_ok`), and the bitmap of the configured packages decides which key is drawn. -/
theorem sysKeyConfigCompletes : Obligations.SysKeyConfigCompletes := by
  intro s calls sys ket configured here entropy bm s1
  refine ⟨fun first => ?_, fun k later => ?_⟩ <;> rw [exec_host .tdhSysKeyConfig rfl s nofun]
  · exact hostCall_ok calls (.inl rfl)
      (sysKeyConfig_ok sys configured here (configureKey_first ket entropy _ _ _ first))
  · exact hostCall_ok calls (.inl rfl)
      (sysKeyConfig_ok sys configured here (configureKey_later ket entropy _ _ _ later))

/-! ## TDH.SYS.LP.SHUTDOWN -/

/-- Settles O6: the lock is the function's only check. -/
theorem sysLpShutdownRule : Obligations.SysLpShutdownRule := by
  intro s calls
  refine ⟨fun held => ?_, fun free => ?_⟩ <;> rw [exec_host .tdhSysLpShutdown rfl s nofun]
  · refine hostCall_error (e := bad Status.sysBusy 0) calls (.inl rfl) ?_
    simp only [hostBody, sysLpShutdown, lockSys_busy .shared held, abort_stops]
  · obtain ⟨l, locked⟩ := lockSys_ok (s := s) (m := .shared) free
    refine hostCall_ok calls (.inl rfl) ?_
    simp only [hostBody, sysLpShutdown, locked, answer_goesOn, pure_answers]

/-! ## TDH.SYS.TDMR.INIT -/

theorem zeroPamtLines_tdmrs (s : State) (t : Tdmr) (base level lo hi : Nat) :
    (zeroPamtLines s t base level lo hi).tdmrs = s.tdmrs := by
  simp only [zeroPamtLines]
  split
  · exact zeroDirect_tdmrs s _ _ _
  · rfl

theorem initPamt_tdmrs (s : State) (t : Tdmr) (lo hi : Nat) : (initPamt s t lo hi).tdmrs = s.tdmrs := by
  simp only [initPamt, zeroPamtLines_tdmrs]

/-- Settles O5: of the TDMR table, the function changes NEXT alone (`initPamt_tdmrs`). -/
theorem sysTdmrInitCompletes : Obligations.SysTdmrInitCompletes := by
  intro s i t ready aligned inside found entry lock unfinished hi region
  obtain ⟨l, locked, -⟩ := lockOp_ok (m := .exclusive) Operand.tdmr lock
  have operand : (isAligned (s.hreg .rcx).toNat (pageBytes 2) && decide ((s.hreg .rcx).toNat < 2 ^ s.plat.addrBits)) =
      true := Bool.and_eq_true_iff.2 ⟨aligned, decide_eq_true inside⟩
  have held : pamtRegionHeld s.locks t.next (t.nextAfter s.plat.tdmrInitChunk) = false := region
  rw [exec_host .tdhSysTdmrInit rfl s nofun]
  refine hostCall_ready ready (withOuts_eq_ok.2 ?_)
  simp only [sysTdmrInit, operand, found, entry, locked, bne_iff_ne.2 unfinished, held, initPamt_tdmrs, Bool.not_false,
    req_true, getOr_some, answer_goesOn, pure_answers]
  rfl

end Sys2Proof.Machine
end

section
/-! PROOFS. The life cycle and the measurement of a TD (O8, O10 to O14; 41_seamcall_mng_mr.md rules R453 to R461). -/

namespace Sys2Proof.Machine

open Safety

/-! ## TDH.MNG.KEY.CONFIG -/

/-- R453 once its checks have passed. -/
theorem mngKeyConfig_ok {s s1 : State} {t : Tdr} (operand : OpaqueOperand s (s.hreg .rcx) 4096)
    (page : PageTakable s (s.hreg .rcx).toNat) (tdr : TdrPage s (s.hreg .rcx).toNat t) (fatal : t.fatal = false)
    (lifecycle : t.lifecycle = .hkidAssigned) (here : bit t.pkgConfigBitmap s.pkg = false)
    (drawn : configureKey s t.hkid t.pkgConfigBitmap (.td (s.hreg .rcx).toNat) = .ok s1) :
    mngKeyConfig s =
      .ok (hostReturn (s1.modTdr (s.hreg .rcx).toNat fun t => t.keyConfigured s.plat s.pkg) Status.success 0 []) := by
  obtain ⟨l, locked, -⟩ := lockTdr_ok operand page
  simp only [mngKeyConfig, locked, typedTdr_ok _ tdr, fatal, lifecycle, here, drawn, Bool.not_false, beq_self_eq_true,
    req_true, answer_goesOn, pure_answers]

/-- Settles O8: the checks pass (`mngKeyConfig_ok`), and the TD's bitmap decides which key is drawn. -/
theorem mngKeyConfigCompletes : Obligations.MngKeyConfigCompletes := by
  intro s t ready operand page ket tdr fatal lifecycle here entropy td f
  refine ⟨fun first => ?_, fun k later => ?_⟩ <;> rw [exec_host .tdhMngKeyConfig rfl s nofun]
  · exact hostCall_ready ready
      (mngKeyConfig_ok operand page tdr fatal lifecycle here (configureKey_first ket entropy _ _ _ first))
  · exact hostCall_ready ready
      (mngKeyConfig_ok operand page tdr fatal lifecycle here (configureKey_later ket entropy _ _ _ later))

/-! ## TDH.MNG.RD and TDH.MNG.WR -/

/-- No access word allows writing alone. -/
theorem Access.reads_of_writes {a : Access} (h : a.writes = true) : a.reads = true := by
  cases a with
  | none | ro => cases h
  | rw | rws => rfl

/-- Settles O10: an access word that writes also reads, so TDH.MNG.WR returns the old value. -/
theorem mngRdWrComplete : Obligations.MngRdWrComplete := by
  intro s t c r i ready ht page found
  obtain ⟨l, opened, -⟩ := openTd_shared Operand.rcx ht page
  have lookup : lookupTdField s (s.hreg .rdx) = .ok (r, i) := by rw [lookupTdField, found, getOr_some]
  refine ⟨fun reads => ?_, fun writes selected => ?_⟩
  · rw [exec_host .tdhMngRd rfl s nofun]
    refine hostCall_ready ready (withOuts_eq_ok.2 ?_)
    simp only [mngRd, opened, lookup, reads, req_true, answer_goesOn, pure_answers]
  · rw [exec_host .tdhMngWr rfl s nofun]
    refine hostCall_ready ready (withOuts_eq_ok.2 ?_)
    simp only [mngWr, opened, lookup, TdFieldRow.maskFor, writes, bne_iff_ne.2 selected,
      Access.reads_of_writes writes, if_true, req_true, answer_goesOn, pure_answers]

/-! ## TDH.MNG.VPFLUSHDONE, TDH.MNG.KEY.FREEID and TDH.MNG.KEY.RECLAIMID -/

/-- The TDR page and the key ownership table, both locked exclusively. -/
theorem lockTdrKot_ok {s : State} (operand : OpaqueOperand s (s.hreg .rcx) 4096)
    (page : PageTakable s (s.hreg .rcx).toNat) (kot : Takable s .kot) :
    ∃ l l', lockTdr s = .ok (l, (s.hreg .rcx).toNat) ∧ lockOp l .kot .exclusive Operand.kot = .ok l' := by
  obtain ⟨l, tdrLocked, locked⟩ := lockTdr_ok operand page
  obtain ⟨l', kotLocked, -⟩ := lockOp_ok (l := l) (id := .kot) (m := .exclusive) Operand.kot
    ((locked.notPamt rfl).trans kot)
  exact ⟨l, l', tdrLocked, kotLocked⟩

/-- Step 4 of R457, for an initialised TD and for one that is not. -/
theorem noVcpuAssociated_ok {s : State} {td : Nat} {t : Tdr}
    (h : t.init = true → ∃ c, TdcsOf s td t c ∧ c.numAssocVcpus = 0) : noVcpuAssociated s td t = .ok () := by
  unfold noVcpuAssociated
  split
  · rename_i init
    obtain ⟨c, tdcs, none⟩ := h init
    simp only [getTdcs_ok tdcs, none, beq_self_eq_true, req_true, answer_goesOn]
  · rfl

/-- Settles O11. The bitmap of an HKID that is freed is already empty, so the entry of a free HKID is the initial one. -/
theorem teardownFunctionsComplete : Obligations.TeardownFunctionsComplete := by
  refine ⟨fun s t ready operand page kot tdr lifecycle assigned vcpus => ?_,
    fun s t ready operand page kot tdr blocked flushed written => ?_⟩
  · obtain ⟨l, l', tdrLocked, kotLocked⟩ := lockTdrKot_ok operand page kot
    have live : (t.lifecycle == .hkidAssigned || t.lifecycle == .keysConfigured) = true := by
      rcases lifecycle with h | h <;> rw [h] <;> rfl
    rw [exec_host .tdhMngVpflushdone rfl s nofun]
    refine hostCall_ready ready ?_
    simp only [hostBody, mngVpflushdone, tdrLocked, kotLocked, typedTdr_ok _ tdr, live, assigned,
      noVcpuAssociated_ok vcpus, beq_self_eq_true, req_true, answer_goesOn, pure_answers]
    rfl
  · obtain ⟨l, l', tdrLocked, kotLocked⟩ := lockTdrKot_ok operand page kot
    rw [exec_host .tdhMngKeyFreeid rfl s nofun]
    refine hostCall_ready ready ?_
    simp only [hostBody, mngKeyFreeid, tdrLocked, kotLocked, typedTdr_ok _ tdr, blocked, flushed, written,
      List.isEmpty_nil, beq_self_eq_true, req_true, answer_goesOn, pure_answers]

/-- Settles O12: the function has no checks of its own; the common ones answer before the module is ready and while it is
being shut down. -/
theorem mngKeyReclaimidRule : Obligations.MngKeyReclaimidRule := by
  intro s calls
  obtain ⟨lp, executes, root, enabled, unblocked⟩ := calls
  rw [exec_host .tdhMngKeyReclaimid rfl s nofun]
  refine ⟨fun ready => ?_, fun shutdown => ?_, fun notReady running => ?_⟩
  · exact hostCall_ready ⟨⟨lp, executes, root, enabled, unblocked⟩, ready⟩ rfl
  · simp [hostCall, rootCall, lpStop_none lp executes, root, enabled, unblocked, sysLeaf, shutdown]
  · simp [hostCall, rootCall, lpStop_none lp executes, root, enabled, unblocked, sysLeaf, notReady, running]

/-! ## TDH.MR.EXTEND and TDH.MR.FINALIZE -/

/-- Settles O13: the Secure EPT lock is shared, the TDR page's is not. -/
theorem mrExtendCompletes : Obligations.MrExtendCompletes := by
  intro s t c p ready aligned ht page sept gpa finalized walk present clean
  obtain ⟨l, opened, locked⟩ := openTd_exclusive Operand.rdx ht page
  obtain ⟨l', walked, -⟩ := lockWalk_ok (m := .shared) (l := l) (td := (s.hreg .rdx).toNat)
    (by rw [CanLock, locked.notPamt rfl]; exact sept) walk
  rw [exec_host .tdhMrExtend rfl s nofun]
  refine hostCall_ready ready (withOuts_eq_ok.2 ?_)
  simp only [mrExtend, aligned, opened, gpa, finalized, walked, present, clean, Bool.not_false, beq_self_eq_true,
    req_true, answer_goesOn, pure_answers]
  rfl

/-- CheckHpa refuses an address that is too high, not aligned or has HKID bits. -/
theorem checkHpa_invalid {s : State} {pa : Word} {align : Nat} (id : Nat)
    (h : 2 ^ s.plat.maxPa ≤ pa.toNat ∨ isAligned pa.toNat align = false ∨ hkidOf s.plat pa.toNat ≠ 0) :
    checkHpa s id pa align = .error (bad Status.operandInvalid id) := by
  have illegal : (decide (pa.toNat < 2 ^ s.plat.maxPa) && isAligned pa.toNat align && hkidOf s.plat pa.toNat == 0) =
      false := by
    rcases h with high | unaligned | hkid
    · simp [Nat.not_lt.2 high]
    · simp [unaligned]
    · simp [hkid]
  simp only [checkHpa, illegal, req_false, abort_stops]

/-- CheckHpa refuses an address whose block is not ready (D63). -/
theorem checkHpa_notReady {s : State} {pa : Word} {align : Nat} (id : Nat) (low : pa.toNat < 2 ^ s.plat.maxPa)
    (aligned : isAligned pa.toNat align = true) (hkid : hkidOf s.plat pa.toNat = 0)
    (block : blockReady s pa.toNat = false) :
    checkHpa s id pa align = .error (bad Status.operandAddrRangeError id) := by
  simp only [checkHpa, low, aligned, hkid, block, decide_true, Bool.and_self, beq_self_eq_true, req_true, req_false,
    answer_goesOn, abort_stops]

/-- The locks of a page operand when one of them is held: the operand is busy. -/
theorem lockPage4k_busy {l : Locks} {a : Nat} (id : Nat)
    (h : lockState l (.pamt1g (pageBase a 2)) = some .exclusive ∨ lockState l (.pamt2m (pageBase a 1)) = some .exclusive ∨
      lockState l (.pamt4k a) ≠ none) :
    lockPage4k l a .exclusive .shared id = .error (bad Status.operandBusy id) := by
  by_cases block1g : lockState l (.pamt1g (pageBase a 2)) = some .exclusive
  · simp only [lockPage4k, lockOp_busy (m := .shared) id (not_not_intro block1g), abort_stops]
  obtain ⟨l1, e1, a1⟩ := lockOp_ok (m := .shared) id block1g
  by_cases block2m : lockState l (.pamt2m (pageBase a 1)) = some .exclusive
  · have held : lockState l1 (.pamt2m (pageBase a 1)) = some .exclusive := (a1.other _ (by simp)).trans block2m
    simp only [lockPage4k, e1, lockOp_busy (m := .shared) id (not_not_intro held), answer_goesOn, abort_stops]
  have sharable : CanLock l1 (.pamt2m (pageBase a 1)) .shared := by
    rw [CanLock, a1.other _ (by simp)]
    exact block2m
  obtain ⟨l2, e2, a2⟩ := lockOp_ok id sharable
  have page : lockState l (.pamt4k a) ≠ none := by
    rcases h with h | h | h
    · exact absurd h block1g
    · exact absurd h block2m
    · exact h
  have held : ¬ CanLock l2 (.pamt4k a) .exclusive := by
    rw [CanLock, a2.other _ (by simp), a1.other _ (by simp)]
    exact page
  simp only [lockPage4k, e1, e2, lockOp_busy id held, answer_goesOn]

/-- Lines 2 to 4 of CheckTD in their order (R327). -/
theorem checkTdState_eq (t : Tdr) :
    checkTdState t =
      if t.fatal then .error (bad Status.tdFatal 0)
      else if t.lifecycle ≠ .keysConfigured then .error (bad Status.tdKeysNotConfigured 0)
      else if t.init then .ok () else .error (bad Status.tdNotInitialized 0) := by
  unfold checkTdState
  cases t.fatal <;> cases t.lifecycle <;> cases t.init <;> rfl

/-- R461 up to the state of the TD. -/
theorem mrFinalize_opened {s : State} {l : Locks} (operand : OpaqueOperand s (s.hreg .rcx) 4096)
    (locked : lockPage4k s.locks (s.hreg .rcx).toNat .exclusive .shared Operand.rcx = .ok l) :
    mrFinalize s = (do
      let t ← checkTd s (s.hreg .rcx).toNat Operand.rcx
      let c ← getTdcs s (s.hreg .rcx).toNat t
      req (!c.finalized) (bad Status.tdFinalized 0)
      pure (hostReturn (s.modTdcs (s.hreg .rcx).toNat fun c => { c with mrtd := c.mrtdContext.final, finalized := true })
        Status.success 0 [])) := by
  simp only [mrFinalize, openTd, checkHpa_ok _ operand, locked, answer_goesOn]
  cases checkTd s (s.hreg .rcx).toNat Operand.rcx with
  | error e => simp only [abort_stops]
  | ok t =>
    simp only [answer_goesOn]
    cases getTdcs s (s.hreg .rcx).toNat t <;> simp only [answer_goesOn, abort_stops, pure_answers]

/-- A TDR page whose TD's state is refused. -/
theorem checkTd_state {s : State} {a : Nat} {t : Tdr} {e : HostAbort} (id : Nat) (tdr : TdrPage s a t)
    (refused : checkTdState t = .error e) : checkTd s a id = .error e := by
  simp only [checkTd, tdr.1, getTdr_ok tdr, refused, req_true, answer_goesOn, abort_stops]

/-- Settles O14: each failing check ends the body with its status, in the order of R461. -/
theorem mrFinalizeRule : Obligations.MrFinalizeRule := by
  intro s calls ready
  dsimp only
  have fail {v d : Nat} (h : mrFinalize s = .error (bad v d)) :
      exec .tdhMrFinalize s = .next (hostReturn s v d []) := by
    rw [exec_host .tdhMrFinalize rfl s nofun]
    exact hostCall_error calls (.inr ready) h
  refine ⟨fun illegal => fail ?_, fun low aligned hkid block => fail ?_, fun operand =>
    ⟨fun held => fail ?_, fun page type => ?_, fun page t tdr => ?_⟩⟩
  · simp only [mrFinalize, openTd, checkHpa_invalid _ illegal, abort_stops]
  · simp only [mrFinalize, openTd, checkHpa_notReady _ low aligned hkid block, abort_stops]
  · simp only [mrFinalize, openTd, checkHpa_ok _ operand,
      lockPage4k_busy _ held, answer_goesOn, abort_stops]
  · obtain ⟨l, locked, -⟩ := lockPage4k_ok (m := .exclusive) Operand.rcx page.1 page.2.1 page.2.2
    refine fail ?_
    simp only [mrFinalize_opened operand locked, checkTd, type, req_false, abort_stops]
  · obtain ⟨l, locked, -⟩ := lockPage4k_ok (m := .exclusive) Operand.rcx page.1 page.2.1 page.2.2
    have body := mrFinalize_opened operand locked
    refine ⟨fun fatal => fail ?_, fun fatal keys => fail ?_, fun fatal keys init => fail ?_, fun c usable tdcs =>
      ⟨fun finalized => fail ?_, fun finalized => ?_⟩⟩
    · rw [body, checkTd_state _ tdr (by rw [checkTdState_eq, fatal, if_pos rfl]), abort_stops]
    · rw [body, checkTd_state (e := bad Status.tdKeysNotConfigured 0) _ tdr (by simp [checkTdState_eq, fatal, keys]),
        abort_stops]
    · rw [body, checkTd_state (e := bad Status.tdNotInitialized 0) _ tdr (by simp [checkTdState_eq, fatal, keys, init]),
        abort_stops]
    · simp only [body, checkTd_ok _ tdr usable, getTdcs_ok tdcs, finalized, Bool.not_true, req_false, answer_goesOn,
        abort_stops]
    · rw [exec_host .tdhMrFinalize rfl s nofun]
      refine hostCall_ok calls (.inr ready) ?_
      simp only [hostBody, body, checkTd_ok _ tdr usable, getTdcs_ok tdcs, finalized, Bool.not_false, req_true,
        answer_goesOn, pure_answers]

end Sys2Proof.Machine
end

section
/-! PROOFS. What a module just loaded finds (O45; 70_reset_and_hazards.md), the write-back of caches (O27, O29;
42_seamcall_phymem_sys.md rules R480 and R483) and TDH.VP.FLUSH (O33; 43_seamcall_vp.md rule R513). -/

namespace Sys2Proof.Machine

open Safety

/-! ## Reset -/

/-- The PAMT of a module just loaded has no entry at any level. -/
theorem pamtAt_reset (a level : Nat) : pamtAt State.reset a level = PamtEntry.free := by
  have unreserved : ((tdmrOf State.reset a).any fun t => inReserved t a) = false := rfl
  have empty : tblGet (State.reset.pamtTable level) (pageBase a level) = none := by
    unfold State.pamtTable
    split <;> rfl
  simp [pamtAt, unreserved, empty]

/-- Settles O45: every table is empty (`pamtAt_reset` for the page metadata), and every logical processor is
`Lp.reset`. -/
theorem resetState : Obligations.ResetState := by
  refine ⟨rfl, rfl, fun l mem => ?_, rfl, rfl, rfl, rfl, rfl, rfl, rfl, fun a level => ?_, fun h => rfl⟩
  · obtain rfl : l = Lp.reset := List.eq_of_mem_replicate mem
    exact ⟨rfl, rfl, rfl, rfl, rfl⟩
  · rw [pamtAt_reset]
    rfl

/-! ## TDH.PHYMEM.CACHE.WB -/

/-- R480 up to the locks: what the write-back goes on with is chosen by RCX. -/
theorem phymemCacheWb_locked {s : State} (kot : Sharable s .kot) (wbt : Takable s (.wbt (s.plat.scopeOf s.curLp)))
    (selector : s.hreg .rcx = 0 ∨ s.hreg .rcx = 1) :
    phymemCacheWb s =
      if s.hreg .rcx = 0 then
        if flushedHkids s = [] then
          .ok (hostReturn (s.setWbt (s.plat.scopeOf s.curLp) ⟨none, []⟩) Status.noHkidReadyToWbcache 0 [])
        else .ok (cacheWbRun s (s.plat.scopeOf s.curLp) (flushedHkids s))
      else (do
        req (wbtAt s (s.plat.scopeOf s.curLp)).intrPoint.isSome (bad Status.wbcacheResumeError 0)
        pure (cacheWbRun s (s.plat.scopeOf s.curLp) (wbtAt s (s.plat.scopeOf s.curLp)).hkidSet)) := by
  have legal : (s.hreg .rcx == 0 || s.hreg .rcx == 1) = true := by simpa using selector
  obtain ⟨l, kotLocked, acquired⟩ := lockOp_ok (m := .shared) Operand.kot kot
  obtain ⟨l', wbtLocked, -⟩ := lockOp_ok (l := l) (m := .exclusive) Operand.wbcache
    (show CanLock l (.wbt (s.plat.scopeOf s.curLp)) .exclusive from (acquired.other _ (by simp)).trans wbt)
  simp only [phymemCacheWb, legal, kotLocked, wbtLocked, req_true, answer_goesOn, pure_answers]

/-- The write-back of a set of HKIDs with no interrupt pending. -/
theorem cacheWbRun_completes {s : State} (scope : Nat) (set : List Nat) (quiet : s.lp.intrPending = none) :
    cacheWbRun s scope set =
      hostReturn (clearScope ((writeBackScope s scope).setWbt scope ⟨none, set⟩) scope set) Status.success 0 [] := by
  simp only [cacheWbRun, quiet]

/-- The write-back of a set of HKIDs that is interrupted after `n` lines. -/
theorem cacheWbRun_interrupted {s : State} {n : Nat} (scope : Nat) (set : List Nat)
    (pending : s.lp.intrPending = some n) :
    cacheWbRun s scope set =
      hostReturn ((cleanEntries s ((scopeEntries s scope).take n)).setWbt scope ⟨some n, set⟩)
        Status.interruptedResumable 0 [] := by
  simp only [cacheWbRun, pending]

/-- Settles O27: RCX chooses the set (`phymemCacheWb_locked`); the pending interrupt decides how its write-back ends
(`cacheWbRun_completes`, `cacheWbRun_interrupted`). -/
theorem phymemCacheWbCompletes : Obligations.PhymemCacheWbCompletes := by
  intro s ready kot wbt
  dsimp only
  have start (first : s.hreg .rcx = 0) := phymemCacheWb_locked kot wbt (.inl first)
  have resume (again : s.hreg .rcx = 1) := phymemCacheWb_locked kot wbt (.inr again)
  have second (again : s.hreg .rcx = 1) : s.hreg .rcx ≠ 0 := by simp [again]
  rw [exec_host .tdhPhymemCacheWb rfl s nofun]
  refine ⟨fun first flushed quiet => hostCall_ready ready ?_, fun n first flushed pending => hostCall_ready ready ?_,
    fun first none => hostCall_ready ready ?_, fun again point quiet => hostCall_ready ready ?_,
    fun n again point pending => hostCall_ready ready ?_,
    fun again fresh => hostCall_error (e := bad Status.wbcacheResumeError 0) ready.1 (.inr ready.2) ?_⟩
  · rw [hostBody, start first, if_pos first, if_neg flushed, cacheWbRun_completes _ _ quiet]
  · rw [hostBody, start first, if_pos first, if_neg flushed, cacheWbRun_interrupted _ _ pending]
  · rw [hostBody, start first, if_pos first, if_pos none]
  · rw [hostBody, resume again, if_neg (second again), point, req_true, answer_goesOn, pure_answers,
      cacheWbRun_completes _ _ quiet]
  · rw [hostBody, resume again, if_neg (second again), point, req_true, answer_goesOn, pure_answers,
      cacheWbRun_interrupted _ _ pending]
  · rw [hostBody, resume again, if_neg (second again), fresh, Option.isSome_none, req_false, abort_stops]

/-! ## TDH.PHYMEM.PAGE.WBINVD -/

/-- Settles O29: the operand's page is checked and locked with its HKID bits cleared; the HKID selects the lines. -/
theorem phymemPageWbinvdCompletes : Obligations.PhymemPageWbinvdCompletes := by
  intro s ready operand sharable unassigned
  obtain ⟨l, locked, -⟩ := lockPage4k_ok (m := .shared) Operand.rcx sharable.1 sharable.2.1 sharable.2.2
  rw [exec_host .tdhPhymemPageWbinvd rfl s nofun]
  refine hostCall_ready ready ?_
  simp only [hostBody, phymemPageWbinvd, checkHpa_ok _ operand, locked, unassigned, beq_self_eq_true, req_true,
    answer_goesOn, pure_answers]

/-! ## TDH.VP.FLUSH -/

/-- Settles O33: the VCPU and its TD are locked (`lockVcpu_ok`), and each check passes. -/
theorem vpFlushCompletes : Obligations.VpFlushCompletes := by
  intro s td t c p ready vcpu takable configured complete here
  obtain ⟨l, l', pageLocked, ownerLocked, -⟩ := lockVcpu_ok Operand.rcx vcpu takable
  obtain ⟨operand, type, -, -, -, -, tdcs, tdvps, readable⟩ := vcpu
  have required : p.numTdvpx = s.plat.tdvpxRequired := complete
  rw [exec_host .tdhVpFlush rfl s nofun]
  refine hostCall_ready ready ?_
  simp only [hostBody, vpFlush, checkHpa_ok _ operand, pageLocked, type, ownerLocked, configured,
    getVp_ok tdvps readable, required, here, getTdcs_ok tdcs, Lp.flushTd, beq_self_eq_true, req_true, answer_goesOn,
    pure_answers]

end Sys2Proof.Machine
end

section
/-! PROOFS. The guest-side functions that read and write its TD's fields, extend a register and report (O37 to O39;
44_tdcall.md rules R542 to R545). -/

namespace Sys2Proof.Machine

open Safety

section
variable {s : State} {v td : Nat} {t : Tdr} {c : Tdcs} {p : Tdvps} {r : TdFieldRow} {i : Nat}

/-! ## TDG.VM.RD and TDG.VM.WR -/

/-- What a field of the TD reads as does not depend on the VCPU's VM exit. -/
theorem readTdField_entered (s : State) (v : Nat) (t : Tdr) (c : Tdcs) (i : Nat) (f : TdField) :
    readTdField (s.tdcallEntered v) t c i f = readTdField s t c i f := by cases f <;> rfl

/-- R544 on a field that the guest may read. -/
theorem vmRd_answers (runs : RunsGuest s v td t c p) (own : p.gprs.rcx = 0)
    (field : tdField s.plat p.gprs.rdx = some (r, i)) (readable : r.guest.reads = true)
    (lock : r.field = .rtmr → lockState s.locks (.rtmr td) ≠ some .exclusive) :
    vmRd (s.tdcallEntered v) v =
      .ok (guestReturn (s.tdcallEntered v) v Status.success 0 [(.r8, readTdField s t c i r.field)]) := by
  have looked : guestTdField (s.tdcallEntered v) p.gprs.rdx = .ok (r, i) := by
    simp only [guestTdField, State.tdcallEntered_plat, field, gOr_some]
  have locked : rtmrReadLock (s.tdcallEntered v) td r.field = .ok () := by
    unfold rtmrReadLock
    split
    next rtmr => exact guestLock_shared (s := s.tdcallEntered v) _ (lock rtmr)
    next => rfl
  simp only [vmRd, openGuest_ok runs, recordExit_gprs, own, looked, readable, locked, readTdField_entered,
    beq_self_eq_true, greq_true, guestAnswer_goesOn, guestPure_answers]

/-- R545 on a field that the guest may write, when no other agent writes it. -/
theorem vmWrAlone_answers (runs : RunsGuest s v td t c p) (own : p.gprs.rcx = 0)
    (field : tdField s.plat p.gprs.rdx = some (r, i)) (writable : r.guest.writes = true)
    (selected : r.writeMask &&& p.gprs.r9 ≠ 0) :
    vmWrAlone (s.tdcallEntered v) v =
      .ok (guestReturn
        ((s.tdcallEntered v).modTdcs td fun u => writeTdField u r.field
          (mergeMask (readTdField s t c i r.field) p.gprs.r8 (r.writeMask &&& p.gprs.r9)))
        v Status.success 0 [(.r8, readTdField s t c i r.field)]) := by
  have looked : guestTdField (s.tdcallEntered v) p.gprs.rdx = .ok (r, i) := by
    simp only [guestTdField, State.tdcallEntered_plat, field, gOr_some]
  have mask : r.maskFor r.guest p.gprs.r9 = r.writeMask &&& p.gprs.r9 := by
    simp only [TdFieldRow.maskFor, writable, if_true]
  simp only [vmWrAlone, openGuest_ok runs, recordExit_gprs, own, looked, mask, bne_iff_ne.2 selected,
    readTdField_entered, beq_self_eq_true, greq_true, guestAnswer_goesOn, guestPure_answers]

/-- The race of R545 is for the field that RDX names, in the TD that the VCPU belongs to. -/
theorem vmWrLoses_entered (runs : RunsGuest s v td t c p) :
    vmWrLoses (s.tdcallEntered v) ((s.tdcallEntered v).ownerOf v)
        (((tblGet (s.tdcallEntered v).vps v).map fun p => p.gprs.rdx).getD 0) =
      (s.raceLost && fieldContended (s.tdcallEntered v) td p.gprs.rdx) := by
  obtain ⟨-, -, -, -, vcpu, owner, -⟩ := runs
  have owner1 : (s.tdcallEntered v).ownerOf v = td := owner
  have vcpu1 : tblGet (s.tdcallEntered v).vps v = some (recordExit p tdcallExit) := by
    rw [State.tdcallEntered, State.modVp, tblGet_tblMod_self, vcpu]
    rfl
  rw [vmWrLoses, owner1, vcpu1, Option.map_some, Option.getD_some, recordExit_gprs]
  rfl

/-- R545 around the race for the field. -/
theorem vmWr_answers {u : State} (runs : RunsGuest s v td t c p)
    (alone : vmWrAlone (s.tdcallEntered v) v = .ok u) :
    vmWr (s.tdcallEntered v) v =
      if s.raceLost = true ∧ fieldContended (s.tdcallEntered v) td p.gprs.rdx = true then
        .ok (guestReturn { s.tdcallEntered v with raceLost := false } v Status.operandBusy Operand.tdcs [(.r8, 0)])
      else .ok u := by
  simp only [vmWr, alone, vmWrLoses_entered runs, Bool.and_eq_true, guestAnswer_goesOn, guestPure_answers]

end

/-- TDCALL around an answer of a function whose failures return zeros too. -/
theorem exec_guest_withOuts {i : Instr} {s u : State} {v td : Nat} {t : Tdr} {c : Tdcs} {p : Tdvps}
    {body : State → Nat → GFn State} {outs : List (Reg × Word)} (side : i.side = .tdcall)
    (calls : GuestCalls s v td t c p) (wraps : guestBody i = fun s v => gWithOuts outs (body s v))
    (answers : body (s.tdcallEntered v) v = .ok u) : exec i s = .next u :=
  exec_guest_ok side calls (by simp only [wraps, answers, gWithOuts_ok])

/-- Settles O37: the functions answer as `vmRd_answers` and `vmWrAlone_answers` say; the race decides which of its two
answers TDG.VM.WR gives (`vmWr_answers`). -/
theorem vmRdWrComplete : Obligations.VmRdWrComplete := by
  intro s v td t c p r i calls own field
  dsimp only
  refine ⟨fun readable lock => exec_guest_withOuts rfl calls rfl (vmRd_answers calls.1 own field readable lock),
    fun writable selected lost => exec_guest_withOuts rfl calls rfl ?_,
    fun writable selected won => exec_guest_withOuts rfl calls rfl ?_⟩ <;>
    rw [vmWr_answers calls.1 (vmWrAlone_answers calls.1 own field writable selected)]
  · exact if_pos lost
  · exact if_neg won

/-! ## TDG.MR.RTMR.EXTEND and TDG.MR.REPORT -/

/-- Settles O38: the operand is private and mapped (`guestGpa_private`), so that its 48 bytes are read under the TD's
HKID (`guestRead_private`). -/
theorem rtmrExtendCompletes : Obligations.RtmrExtendCompletes := by
  intro s v td t c p a level calls aligned isPrivate index takable walk hkid clean
  have locked : guestLock (s.tdcallEntered v) (.rtmr td) .exclusive Operand.rtmr = .ok () := guestLock_free _ _ takable
  refine exec_guest_ok rfl calls ?_
  simp only [guestBody, mrRtmrExtend, openGuest_ok calls.1, recordExit_gprs, aligned, isPrivate, Bool.and_self, index,
    decide_true, locked, guestGpa_entered, guestGpa_private _ isPrivate walk, guestRead_entered,
    guestRead_private hkid clean, greq_true, guestAnswer_goesOn, guestPure_answers]
  rfl

/-- Settles O39: each check passes, and neither operand's translation nor the data depends on the VM exit of TDCALL
(`guestGpa_entered`, `guestRead_entered`). -/
theorem mrReportCompletes : Obligations.MrReportCompletes := by
  intro s v td t c p src dst data calls outAligned outLegal inAligned inLegal reserved sharable source read target backed
  have locked : guestLock (s.tdcallEntered v) (.rtmr td) .shared Operand.rtmr = .ok () := guestLock_shared _ sharable
  refine exec_guest_ok rfl calls ?_
  simp only [guestBody, mrReport, openGuest_ok calls.1, recordExit_gprs, outAligned, outLegal, inAligned, inLegal,
    reserved, Bool.and_self, beq_self_eq_true, locked, guestGpa_entered, source, guestRead_entered, read, target,
    State.tdcallEntered_plat, backed, greq_true, guestAnswer_goesOn, guestPure_answers]

end Sys2Proof.Machine
end

section
/-! PROOFS. What a host-side function leaves of memory and of what every HKID reads there (O52, O53; 40_seamcall_mem.md,
41_seamcall_mng_mr.md, 42_seamcall_phymem_sys.md, 43_seamcall_vp.md): the functions that store nothing, those that free a
page of the module's own, those that configure a key, and those that initialise a page. -/

namespace Sys2Proof.Machine

open Safety

/-! ## Reads after the operations that end a call -/

section
variable {s u : State}

theorem SameReads.hostReturn (h : SameReads s u) (v d : Nat) (outs : List (Reg × Word)) :
    SameReads s (hostReturn u v d outs) := h.trans ⟨rfl, rfl, rfl, rfl, rfl⟩

theorem SameReads.fatalShutdown (h : SameReads s u) : SameReads s (fatalShutdown u) :=
  h.trans ⟨rfl, rfl, rfl, rfl, rfl⟩

theorem SameReads.unbreakableShutdown (h : SameReads s u) : SameReads s (unbreakableShutdown u) :=
  h.trans ⟨by simp, by simp, by simp, by simp, by simp⟩

/-- How SEAMCALL ends does not change what is read. -/
theorem finishHost_post {r : Fn State} {Q : State → Prop} (failed : ∀ {t}, SameReads u t → Q t) (hr : Answers r Q) :
    Q (finishHost u r) := by
  have h := SameReads.refl u
  unfold finishHost
  split
  · exact hr _ rfl
  · exact failed (h.hostReturn _ _ _)
  · exact failed h.unbreakableShutdown
  · exact failed h.fatalShutdown

/-- A host-side function that reaches the module: what holds of all its answers, and of all states that read as before,
holds of the next state. -/
theorem exec_host_post {i : Instr} {t : State} {Q : State → Prop} (side : i.side = .seamcall) (other : i ≠ .tdhMemWr)
    (calls : HostCalls s) (he : exec i s = .next t) (failed : ∀ {t}, SameReads s t → Q t)
    (answers : Answers (hostBody i s) Q) : Q t := by
  rw [exec_host i side s fun h => absurd h other] at he
  by_cases reaches : sysLeaf i = true ∨ s.sysState = .sysReady
  · rw [hostCall_reaches calls reaches] at he
    cases he
    exact finishHost_post failed answers
  · obtain ⟨notSys, notReady⟩ := not_or.1 reaches
    rw [Bool.not_eq_true] at notSys
    rw [notSys, hostCall_notReady _ calls notReady] at he
    cases he
    exact failed ((SameReads.refl s).hostReturn _ _ _)

end

/-! ## VM exits and TD exits -/

section
variable {s t : State} (h : SameReads s t)
include h

theorem SameReads.asyncTdExit (v : Nat) (x : VmExit) (cls : ExitClass) (q : Word) :
    SameReads s (asyncTdExit t v x cls q) := by
  obtain ⟨_, _, _, _, _, _, e⟩ := asyncTdExit_frame t v x cls q
  rw [e]
  exact h.trans ⟨rfl, rfl, rfl, rfl, rfl⟩

theorem SameReads.modVp (v : Nat) (f : Tdvps → Tdvps) : SameReads s (t.modVp v f) := h.trans ⟨rfl, rfl, rfl, rfl, rfl⟩

theorem SameReads.modLp (f : Lp → Lp) : SameReads s (t.modLp f) := h.trans ⟨rfl, rfl, rfl, rfl, rfl⟩

theorem SameReads.ite {c : Prop} [Decidable c] {u : State} (k : SameReads s u) : SameReads s (if c then t else u) := by
  split
  · exact h
  · exact k

theorem SameReads.serveExit {u : State} (v : Nat) (k : SameReads s u) : SameReads s (serveExit t v u) :=
  .ite (h.modLp _) (k.ite h.unbreakableShutdown)

theorem SameReads.guestExit (v : Nat) (x : VmExit) (cls : ExitClass) (q : Word) :
    SameReads s (guestExit t v x cls q) := h.serveExit v (h.asyncTdExit v x cls q)

theorem SameReads.unexpectedExit (v : Nat) (x : VmExit) : SameReads s (unexpectedExit t v x) := by
  refine h.serveExit v ?_
  split
  · exact (h.asyncTdExit v x _ _).ite h.fatalShutdown
  · exact h.fatalShutdown

theorem SameReads.deliverPendingDebug (v : Nat) : SameReads s (deliverPendingDebug t v) := by
  unfold Machine.deliverPendingDebug
  split
  · exact h
  · exact .ite (.ite ((h.modVp v _).unexpectedExit v _) ((h.modVp v _).modVp v _)) h

theorem SameReads.entryEvents (v : Nat) : SameReads s (entryEvents t v) := by
  unfold Machine.entryEvents
  split
  · exact h
  · exact .ite (.ite ((h.modVp v _).modVp v _) ((h.modVp v _).guestExit v _ _ _)) (h.deliverPendingDebug v)

theorem SameReads.enterGuest (v : Nat) (c : Tdcs) (p : Tdvps) : SameReads s (enterGuest t v c p) := by
  unfold Machine.enterGuest
  split
  · exact h.unexpectedExit v _
  · exact h.entryEvents v

end

/-! ## The functions that store no byte -/

section
variable (s : State)

theorem memPageAug_reads : Answers (memPageAug s) (SameReads s) := by
  unfold memPageAug
  repeat refine answers_bind fun _ _ => ?_
  exact answers_pure ⟨by simp, by simp, by simp, by simp, by simp⟩

theorem memRangeBlock_reads : Answers (memRangeBlock s) (SameReads s) := by
  unfold memRangeBlock
  repeat refine answers_bind fun _ _ => ?_
  exact answers_pure ⟨by simp, by simp, by simp, by simp, by simp⟩

theorem memRangeUnblock_reads : Answers (memRangeUnblock s) (SameReads s) := by
  unfold memRangeUnblock
  repeat refine answers_bind fun _ _ => ?_
  exact answers_pure ⟨by simp, by simp, by simp, by simp, by simp⟩

theorem memRd_reads : Answers (memRd s) (SameReads s) :=
  answers_bind fun _ _ => answers_pure ((SameReads.refl s).hostReturn _ _ _)

theorem memSeptRd_reads : Answers (memSeptRd s) (SameReads s) := by
  unfold memSeptRd
  repeat refine answers_bind fun _ _ => ?_
  exact answers_pure ((SameReads.refl s).hostReturn _ _ _)

theorem memTrack_reads : Answers (memTrack s) (SameReads s) := by
  unfold memTrack
  repeat refine answers_bind fun _ _ => ?_
  exact answers_pure ⟨rfl, rfl, rfl, rfl, rfl⟩

theorem mngRd_reads : Answers (mngRd s) (SameReads s) := by
  unfold mngRd
  repeat refine answers_bind fun _ _ => ?_
  exact answers_pure ((SameReads.refl s).hostReturn _ _ _)

theorem mngWr_reads : Answers (mngWr s) (SameReads s) := by
  unfold mngWr
  repeat refine answers_bind fun _ _ => ?_
  exact answers_pure ⟨rfl, rfl, rfl, rfl, rfl⟩

theorem mngInit_reads : Answers (mngInit s) (SameReads s) := by
  unfold mngInit
  repeat refine answers_bind fun _ _ => ?_
  exact answers_pure ⟨rfl, rfl, rfl, rfl, rfl⟩

theorem mngVpflushdone_reads : Answers (mngVpflushdone s) (SameReads s) := by
  unfold mngVpflushdone
  repeat refine answers_bind fun _ _ => ?_
  exact answers_pure ⟨rfl, rfl, rfl, rfl, rfl⟩

theorem mngKeyFreeid_reads : Answers (mngKeyFreeid s) (SameReads s) := by
  unfold mngKeyFreeid
  repeat refine answers_bind fun _ _ => ?_
  exact answers_pure ⟨rfl, rfl, rfl, rfl, rfl⟩

theorem mngKeyReclaimid_reads : Answers (mngKeyReclaimid s) (SameReads s) :=
  answers_pure ((SameReads.refl s).hostReturn _ _ _)

theorem mrExtend_reads : Answers (mrExtend s) (SameReads s) := by
  unfold mrExtend
  repeat refine answers_bind fun _ _ => ?_
  exact answers_pure ⟨rfl, rfl, rfl, rfl, rfl⟩

theorem mrFinalize_reads : Answers (mrFinalize s) (SameReads s) := by
  unfold mrFinalize
  repeat refine answers_bind fun _ _ => ?_
  exact answers_pure ⟨rfl, rfl, rfl, rfl, rfl⟩

theorem phymemPageRdmd_reads : Answers (phymemPageRdmd s) (SameReads s) := by
  unfold phymemPageRdmd
  repeat refine answers_bind fun _ _ => ?_
  exact answers_pure ((SameReads.refl s).hostReturn _ _ _)

theorem vpFlush_reads : Answers (vpFlush s) (SameReads s) := by
  unfold vpFlush
  repeat refine answers_bind fun _ _ => ?_
  exact answers_pure ⟨rfl, rfl, rfl, rfl, rfl⟩

theorem vpInit_reads : Answers (vpInit s) (SameReads s) := by
  unfold vpInit
  repeat refine answers_bind fun _ _ => ?_
  exact answers_pure ⟨rfl, rfl, rfl, rfl, rfl⟩

theorem associate_reads (a td : Nat) (v : Tdvps) (hkid : Nat) : Answers (associate s a td v hkid) (SameReads s) := by
  intro u hu
  obtain ⟨_, rfl⟩ := associate_answers s a td v hkid u hu
  exact ⟨rfl, rfl, rfl, rfl, rfl⟩

theorem vpRd_reads : Answers (vpRd s) (SameReads s) := by
  unfold vpRd
  iterate 3 refine answers_bind fun _ _ => ?_
  refine answers_bind fun u hu => ?_
  have associated : SameReads s u := associate_reads s _ _ _ _ u hu
  exact answers_pure (associated.hostReturn _ _ _)

theorem vpWr_reads : Answers (vpWr s) (SameReads s) := by
  unfold vpWr
  iterate 3 refine answers_bind fun _ _ => ?_
  refine answers_bind fun u hu => ?_
  have associated : SameReads s u := associate_reads s _ _ _ _ u hu
  repeat refine answers_bind fun _ _ => ?_
  exact answers_pure ((associated.modVp _ _).hostReturn _ _ _)

theorem vpEnter_reads : Answers (vpEnter s) (SameReads s) := by
  unfold vpEnter
  iterate 10 refine answers_bind fun _ _ => ?_
  refine answers_bind fun u hu => ?_
  have associated : SameReads s u := associate_reads s _ _ _ _ u hu
  repeat refine answers_bind fun _ _ => ?_
  refine answers_pure (SameReads.enterGuest ?_ _ _ _)
  exact associated.trans ⟨rfl, rfl, rfl, rfl, rfl⟩

theorem entryAnswer_reads {r : Fn State} (hr : Answers r (SameReads s)) :
    Answers (entryAnswer s r) (SameReads s) := by
  unfold entryAnswer
  split
  · exact answers_ok ⟨rfl, rfl, rfl, rfl, rfl⟩
  · exact hr

theorem sysInit_reads : Answers (sysInit s) (SameReads s) := by
  unfold sysInit
  repeat refine answers_bind fun _ _ => ?_
  exact answers_pure ⟨rfl, rfl, rfl, rfl, rfl⟩

theorem sysLpInit_reads : Answers (sysLpInit s) (SameReads s) := by
  unfold sysLpInit
  iterate 4 refine answers_bind fun _ _ => ?_
  dsimp only
  split
  · exact answers_pure ⟨rfl, rfl, rfl, rfl, rfl⟩
  · exact answers_pure (finishHost_post (fun h => ((SameReads.refl s).modLp _).trans h)
      (answers_withOuts (answers_error _ _)))

theorem sysLpShutdown_reads : Answers (sysLpShutdown s) (SameReads s) :=
  answers_bind fun _ _ => answers_pure ⟨rfl, rfl, rfl, rfl, rfl⟩

theorem sysConfig_reads : Answers (sysConfig s) (SameReads s) := by
  unfold sysConfig
  repeat refine answers_bind fun _ _ => ?_
  exact answers_pure ⟨rfl, rfl, rfl, rfl, rfl⟩

end

/-! ## The functions that free a page of the module's own -/

/-- Two states between which no read can tell, whatever lines may still be modified in the caches. -/
structure ReadsAlike (s t : State) : Prop where
  mem : t.mem = { s.mem with stale := t.mem.stale }
  ket : t.ket = s.ket
  plat : t.plat = s.plat
  curLp : t.curLp = s.curLp
  tick : t.tick = s.tick

namespace ReadsAlike

protected theorem refl (s : State) : ReadsAlike s s := ⟨rfl, rfl, rfl, rfl, rfl⟩

section
variable {s t u : State}

theorem readByte (h : ReadsAlike s t) (k a : Nat) : Machine.readByte t k a = Machine.readByte s k a :=
  SameReads.readByte (s := { s with mem := { s.mem with stale := t.mem.stale } })
    ⟨h.mem, h.ket, h.plat, h.curLp, h.tick⟩ k a

protected theorem trans (h : ReadsAlike s t) (k : ReadsAlike t u) : ReadsAlike s u where
  mem := by rw [k.mem, h.mem]
  ket := k.ket.trans h.ket
  plat := k.plat.trans h.plat
  curLp := k.curLp.trans h.curLp
  tick := k.tick.trans h.tick

theorem wf (h : ReadsAlike s t) (canonical : s.mem.wf = true) : t.mem.wf = true := by
  rw [h.mem]
  exact canonical

end

section
variable {s t : State} (h : ReadsAlike s t)
include h

/-- An update that no read can tell. -/
protected theorem same {u : State} (k : SameReads t u) : ReadsAlike s u :=
  h.trans ⟨by rw [k.mem], k.ket, k.plat, k.curLp, k.tick⟩

protected theorem modTdr {a : Nat} {f : Tdr → Tdr} : ReadsAlike s (t.modTdr a f) := h.same ⟨rfl, rfl, rfl, rfl, rfl⟩

protected theorem modVp {a : Nat} {f : Tdvps → Tdvps} : ReadsAlike s (t.modVp a f) := h.same ⟨rfl, rfl, rfl, rfl, rfl⟩

protected theorem setVp {a : Nat} {p : Tdvps} : ReadsAlike s { t with vps := tblSet t.vps a p } :=
  h.same ⟨rfl, rfl, rfl, rfl, rfl⟩

protected theorem setSept {a : Nat} {e : SeptEntry} : ReadsAlike s (t.setSept a e) := h.same ⟨rfl, rfl, rfl, rfl, rfl⟩

protected theorem modTdcs {a : Nat} {f : Tdcs → Tdcs} : ReadsAlike s (t.modTdcs a f) :=
  h.same ⟨rfl, rfl, rfl, rfl, rfl⟩

protected theorem fillSeptPage {page : Nat} {f : Nat → SeptEntry} : ReadsAlike s (t.fillSeptPage page f) :=
  h.same ⟨rfl, rfl, rfl, rfl, rfl⟩

protected theorem clearSeptPage {page : Nat} : ReadsAlike s (t.clearSeptPage page) := h.same ⟨rfl, rfl, rfl, rfl, rfl⟩

protected theorem hostReturn {v d : Nat} {o : List (Reg × Word)} : ReadsAlike s (hostReturn t v d o) :=
  h.same ⟨rfl, rfl, rfl, rfl, rfl⟩

protected theorem setPamt {a level : Nat} {e : PamtEntry} : ReadsAlike s (t.setPamt a level e) :=
  h.same ⟨by simp, by simp, by simp, by simp, by simp⟩

protected theorem assignPage {a level : Nat} {pt : PageType} {owner : Nat} : ReadsAlike s (t.assignPage a level pt owner) :=
  h.setPamt

protected theorem addStale {a n hkid : Nat} : ReadsAlike s (t.addStale a n hkid) := h.trans ⟨rfl, rfl, rfl, rfl, rfl⟩

protected theorem freePage {a level : Nat} : ReadsAlike s (t.freePage a level) := by
  unfold State.freePage
  split
  · exact h.addStale.setPamt
  · exact h.setPamt

protected theorem forget {a : Nat} {pt : PageType} : ReadsAlike s (t.forget a pt) := by
  unfold State.forget
  split <;> exact h.same ⟨rfl, rfl, rfl, rfl, rfl⟩

omit h in
protected theorem freePages {a level n : Nat} {t : State} (h : ReadsAlike s t) : ReadsAlike s (freePages t a level n) := by
  induction n with
  | zero => exact h
  | succ n ih => exact ih.freePage

omit h in
protected theorem assignPages {a level : Nat} {pt : PageType} {owner n : Nat} {t : State} (h : ReadsAlike s t) :
    ReadsAlike s (assignPages t a level pt owner n) := by
  induction n with
  | zero => exact h
  | succ n ih => exact ih.assignPage

end

end ReadsAlike

section
variable (s : State)

theorem memPagePromote_alike : Answers (memPagePromote s) (ReadsAlike s) := by
  unfold memPagePromote
  repeat refine answers_bind fun _ _ => ?_
  exact answers_pure (ReadsAlike.refl s).freePages.assignPage.clearSeptPage.setSept.modTdr.freePage.hostReturn

theorem memPageRemove_alike : Answers (memPageRemove s) (ReadsAlike s) := by
  unfold memPageRemove
  repeat refine answers_bind fun _ _ => ?_
  exact answers_pure (ReadsAlike.refl s).modTdr.freePage.setSept.hostReturn

theorem memSeptRemove_alike : Answers (memSeptRemove s) (ReadsAlike s) := by
  unfold memSeptRemove
  repeat refine answers_bind fun _ _ => ?_
  exact answers_pure (ReadsAlike.refl s).modTdr.freePage.setSept.hostReturn

theorem reclaimChild_alike (l : Locks) (a level : Nat) (e : PamtEntry) :
    Answers (reclaimChild s l a level e) (ReadsAlike s) := by
  unfold reclaimChild
  repeat refine answers_bind fun _ _ => ?_
  exact answers_pure (ReadsAlike.refl s).modTdr.forget.freePage.hostReturn

theorem reclaimTdr_alike (a : Nat) (e : PamtEntry) : Answers (reclaimTdr s a e) (ReadsAlike s) := by
  unfold reclaimTdr
  repeat refine answers_bind fun _ _ => ?_
  exact answers_pure (ReadsAlike.refl s).forget.freePage.hostReturn

theorem phymemPageReclaim_alike : Answers (phymemPageReclaim s) (ReadsAlike s) := by
  unfold phymemPageReclaim
  repeat refine answers_bind fun _ _ => ?_
  exact answers_ite (fun _ => reclaimTdr_alike s _ _) fun _ => reclaimChild_alike s _ _ _ _

end

/-! ## The functions that configure a key -/

/-- The next state reads as before under every HKID but one, whose key is configured. -/
def ReadsButUnder (hkid : Nat) (s t : State) : Prop :=
  t.mem = s.mem ∧ ∀ h a, h ≠ hkid → readByte t h a = readByte s h a

theorem SameReads.butUnder {s t : State} (h : SameReads s t) (hkid : Nat) : ReadsButUnder hkid s t :=
  ⟨h.mem, fun k a _ => h.readByte k a⟩

/-- A key that is configured on this package is read by its own HKID only. -/
theorem setKey_butUnder (s : State) (hkid : Nat) (k : KeyCfg) (n : Nat) :
    ReadsButUnder hkid s { s with ket := tblSet s.ket (ketKey s.pkg hkid) k, nextKey := n } := by
  refine ⟨rfl, fun h a other => ?_⟩
  have apart : ketKey s.pkg hkid ≠ ketKey s.pkg h := fun e => other (Nat.add_left_cancel e).symm
  have key : keyOf { s with ket := tblSet s.ket (ketKey s.pkg hkid) k, nextKey := n } h = keyOf s h := by
    show (tblGet (tblSet s.ket (ketKey s.pkg hkid) k) (ketKey s.pkg h)).getD _ = _
    rw [tblGet_tblSet, if_neg apart]
    rfl
  simp only [readByte, memByte, lineView, key]

theorem configureKey_butUnder (s : State) (hkid : Nat) (done : Word) (owner : KeyOwner) :
    Answers (configureKey s hkid done owner) (ReadsButUnder hkid s) := by
  unfold configureKey
  iterate 2 refine answers_bind fun _ _ => ?_
  split <;> exact answers_pure (setKey_butUnder s hkid _ _)

theorem ReadsButUnder.same {hkid : Nat} {s t u : State} (h : ReadsButUnder hkid s t) (k : SameReads t u) :
    ReadsButUnder hkid s u :=
  ⟨k.mem.trans h.1, fun j a other => (k.readByte j a).trans (h.2 j a other)⟩

/-- A page operand that passes CheckHpa is aligned to its size. -/
theorem checkHpa_aligned (s : State) (id : Nat) (pa : Word) (n : Nat) :
    Answers (checkHpa s id pa n) fun a => a = pa.toNat ∧ isAligned a n = true := by
  unfold checkHpa
  refine answers_bind fun _ legal => ?_
  repeat refine answers_bind fun _ _ => ?_
  have checks := req_eq_ok.1 legal
  simp only [Bool.and_eq_true] at checks
  exact answers_pure ⟨rfl, checks.1.2⟩

theorem lockTdr_answers (s : State) :
    Answers (lockTdr s) fun r => r.2 = (s.hreg .rcx).toNat ∧ isAligned r.2 4096 = true := by
  unfold lockTdr
  exact answers_bind fun a ha => answers_bind fun _ _ => answers_pure (checkHpa_aligned s _ _ _ a ha)

theorem mngKeyConfig_butUnder (s : State) :
    Answers (mngKeyConfig s) fun t =>
      ∃ r, tblGet s.tdrs (s.hreg .rcx).toNat = some r ∧ ReadsButUnder r.hkid s t := by
  unfold mngKeyConfig
  refine answers_bind fun ⟨_, td⟩ operand => answers_bind fun r hr => ?_
  obtain ⟨rfl, -⟩ : td = _ ∧ _ := lockTdr_answers s _ operand
  iterate 3 refine answers_bind fun _ _ => ?_
  refine answers_bind fun u hu => ?_
  have keyed : ReadsButUnder r.hkid s u := configureKey_butUnder s _ _ _ u hu
  exact answers_pure ⟨r, typedTdr_answers s _ _ r hr, keyed.same ⟨rfl, rfl, rfl, rfl, rfl⟩⟩

theorem sysKeyConfig_butUnder (s : State) : Answers (sysKeyConfig s) (ReadsButUnder s.globalHkid s) := by
  unfold sysKeyConfig
  iterate 4 refine answers_bind fun _ _ => ?_
  refine answers_bind fun u hu => ?_
  have keyed : ReadsButUnder s.globalHkid s u := configureKey_butUnder s _ _ _ u hu
  exact answers_pure (keyed.same ⟨rfl, rfl, rfl, rfl, rfl⟩)

/-! ## The functions that initialise a page -/

/-- Every byte outside the page reads as before, under every HKID; memory stays in its canonical form. -/
def OutsidePage (page : Nat) (s t : State) : Prop :=
  ∀ hkid a, hkid < 65536 → ¬ (page ≤ a ∧ a < page + 4096) → readByte t hkid a = readByte s hkid a

section
variable {page : Nat} {s t u : State}

theorem ReadsAlike.outside (h : ReadsAlike s t) : OutsidePage page s t := fun k a _ _ => h.readByte k a

theorem OutsidePage.alike (h : OutsidePage page s t) (k : ReadsAlike t u) : OutsidePage page s u :=
  fun hkid a low out => (k.readByte hkid a).trans (h hkid a low out)

/-- The lines of an aligned page hold its bytes and no others. -/
theorem lines_outside {a : Nat} (aligned : isAligned page 4096 = true) (out : ¬ (page ≤ a ∧ a < page + 4096)) :
    ¬ (page / 64 ≤ a / 64 ∧ a / 64 < (page + 4096) / 64) := by
  have whole : page % 4096 = 0 := by simpa [isAligned] using aligned
  omega

theorem zeroDirect_outside (hkid : Nat) (canonical : s.mem.wf = true) (aligned : isAligned page 4096 = true) :
    OutsidePage page s (zeroDirect s hkid page 4096) :=
  fun _ _ low out => readByte_zeroDirect_other canonical low (lines_outside aligned out) out

theorem ReadsAlike.zeroDirect_outside (h : ReadsAlike s t) (hkid : Nat) (canonical : s.mem.wf = true)
    (aligned : isAligned page 4096 = true) : OutsidePage page s (zeroDirect t hkid page 4096) :=
  fun k a low out =>
    (Machine.zeroDirect_outside hkid (h.wf canonical) aligned k a low out).trans (h.readByte k a)

theorem writeDirect_outside {bs : List Byte} (hkid : Nat) (canonical : s.mem.wf = true)
    (aligned : isAligned page 4096 = true) (size : bs.length = 4096) :
    OutsidePage page s (writeDirect s hkid page bs) :=
  fun _ _ low out => readByte_writeDirect_other canonical low (size ▸ lines_outside aligned out) (size ▸ out)

end

section
variable (s : State)

/-- A free page that is taken is the operand's, and aligned. -/
theorem takeFreePage_aligned (l : Locks) (id : Nat) (pa : Word) :
    Answers (takeFreePage s l id pa 0) fun r => r.2 = pa.toNat ∧ isAligned r.2 4096 = true := by
  unfold takeFreePage
  refine answers_bind fun a ha => ?_
  repeat refine answers_bind fun _ _ => ?_
  exact answers_pure (checkHpa_aligned s _ _ _ a ha)

theorem readShared_length (pa n : Nat) : Answers (readShared s pa n) fun bs => bs.length = n := by
  unfold readShared
  refine answers_bind fun _ _ => answers_pure ?_
  unfold sharedBytes readTyped
  split <;> simp [readBytes]

theorem readPage_length (hkid a : Nat) : Answers (readPage s hkid a) fun bs => bs.length = 4096 := by
  unfold readPage
  refine answers_bind fun _ _ => answers_pure ?_
  simp [readBytes]

variable {s} (canonical : s.mem.wf = true)
include canonical

theorem mngCreate_outside : Answers (mngCreate s) (OutsidePage (s.hreg .rcx).toNat s) := by
  unfold mngCreate
  refine answers_bind fun ⟨_, td⟩ operand => ?_
  obtain ⟨rfl, aligned⟩ : td = _ ∧ _ := lockTdr_answers s _ operand
  repeat refine answers_bind fun _ _ => ?_
  refine answers_pure ((zeroDirect_outside s.globalHkid canonical aligned).alike (.hostReturn (.assignPage ?_)))
  exact ⟨rfl, rfl, rfl, rfl, rfl⟩

theorem mngAddcx_outside : Answers (mngAddcx s) (OutsidePage (s.hreg .rcx).toNat s) := by
  unfold mngAddcx
  refine answers_bind fun a operand => ?_
  obtain ⟨rfl, aligned⟩ := checkHpa_aligned s _ _ _ a operand
  repeat refine answers_bind fun _ _ => ?_
  exact answers_pure ((zeroDirect_outside _ canonical aligned).alike (ReadsAlike.refl _).modTdr.assignPage.hostReturn)

theorem vpCreate_outside : Answers (vpCreate s) (OutsidePage (s.hreg .rcx).toNat s) := by
  unfold vpCreate
  refine answers_bind fun a operand => ?_
  obtain ⟨rfl, aligned⟩ := checkHpa_aligned s _ _ _ a operand
  repeat refine answers_bind fun _ _ => ?_
  exact answers_pure ((zeroDirect_outside _ canonical aligned).alike
    (ReadsAlike.refl _).modTdr.setVp.assignPage.hostReturn)

theorem vpAddcx_outside : Answers (vpAddcx s) (OutsidePage (s.hreg .rcx).toNat s) := by
  unfold vpAddcx
  refine answers_bind fun a operand => ?_
  obtain ⟨rfl, aligned⟩ := checkHpa_aligned s _ _ _ a operand
  repeat refine answers_bind fun _ _ => ?_
  exact answers_pure ((zeroDirect_outside _ canonical aligned).alike
    (ReadsAlike.refl _).modVp.modTdr.assignPage.hostReturn)

theorem memSeptAdd_outside : Answers (memSeptAdd s) (OutsidePage (s.hreg .r8).toNat s) := by
  unfold memSeptAdd
  refine answers_bind fun _ _ => answers_bind fun ⟨_, a⟩ taken => ?_
  obtain ⟨rfl, aligned⟩ : a = _ ∧ _ := takeFreePage_aligned s _ _ _ _ taken
  repeat refine answers_bind fun _ _ => ?_
  exact answers_pure ((zeroDirect_outside _ canonical aligned).alike
    (ReadsAlike.refl _).clearSeptPage.setSept.modTdr.assignPage.hostReturn)

theorem memPageAdd_outside : Answers (memPageAdd s) (OutsidePage (s.hreg .r8).toNat s) := by
  unfold memPageAdd
  iterate 2 refine answers_bind fun _ _ => ?_
  refine answers_bind fun ⟨_, a⟩ taken => ?_
  obtain ⟨rfl, aligned⟩ : a = _ ∧ _ := takeFreePage_aligned s _ _ _ _ taken
  iterate 3 refine answers_bind fun _ _ => ?_
  refine answers_bind fun bs source => ?_
  have size : bs.length = 4096 := readShared_length s _ _ bs source
  exact answers_pure ((writeDirect_outside _ canonical aligned size).alike
    (ReadsAlike.refl _).setSept.modTdcs.modTdr.assignPage.hostReturn)

theorem memPageDemote_outside : Answers (memPageDemote s) (OutsidePage (s.hreg .r8).toNat s) := by
  unfold memPageDemote
  refine answers_bind fun _ _ => answers_bind fun ⟨_, a⟩ taken => ?_
  obtain ⟨rfl, aligned⟩ : a = _ ∧ _ := takeFreePage_aligned s _ _ _ _ taken
  repeat refine answers_bind fun _ _ => ?_
  exact answers_pure (((ReadsAlike.refl s).freePage.assignPages.zeroDirect_outside _ canonical aligned).alike
    (ReadsAlike.refl _).fillSeptPage.setSept.modTdr.assignPage.hostReturn)

/-- The copy of a page's content stays inside the new page. -/
theorem copyPage_outside {page : Nat} (hkid old : Nat) (copied : Bool) (aligned : isAligned page 4096 = true) :
    Answers (copyPage s hkid old page copied) (OutsidePage page s) :=
  answers_ite
    (fun _ => answers_bind fun bs read =>
      answers_pure (writeDirect_outside _ canonical aligned (readPage_length s _ _ bs read)))
    fun _ => answers_pure (ReadsAlike.refl s).outside

theorem memPageRelocate_outside : Answers (memPageRelocate s) (OutsidePage (s.hreg .r8).toNat s) := by
  unfold memPageRelocate
  refine answers_bind fun _ _ => answers_bind fun ⟨_, a⟩ taken => ?_
  obtain ⟨rfl, aligned⟩ : a = _ ∧ _ := takeFreePage_aligned s _ _ _ _ taken
  iterate 5 refine answers_bind fun _ _ => ?_
  refine answers_bind fun u hu => ?_
  have copied := copyPage_outside canonical _ _ _ aligned u hu
  exact answers_pure (copied.alike (ReadsAlike.refl _).freePage.assignPage.setSept.hostReturn)

end

/-! ## The obligations -/

/-- The host-side functions that store no byte, by the tables of their rules. -/
theorem hostBody_reads {i : Instr} {s : State}
    (h : i ∈ [.tdhVpEnter, .tdhMemPageAug, .tdhMemRangeBlock, .tdhMngRd, .tdhMemRd, .tdhMngWr, .tdhMrExtend,
        .tdhMrFinalize, .tdhVpFlush, .tdhMngVpflushdone, .tdhMngKeyFreeid, .tdhMngInit, .tdhVpInit,
        .tdhPhymemPageRdmd, .tdhMemSeptRd, .tdhVpRd, .tdhMngKeyReclaimid, .tdhSysInit, .tdhSysLpInit, .tdhMemTrack,
        .tdhMemRangeUnblock, .tdhVpWr, .tdhSysLpShutdown, .tdhSysConfig]) :
    i.side = .seamcall ∧ i ≠ .tdhMemWr ∧ Answers (hostBody i s) (SameReads s) := by
  cases i with
  | tdhVpEnter => exact ⟨rfl, nofun, entryAnswer_reads s (vpEnter_reads s)⟩
  | tdhMemPageAug => exact ⟨rfl, nofun, answers_withOuts (memPageAug_reads s)⟩
  | tdhMemRangeBlock => exact ⟨rfl, nofun, answers_withOuts (memRangeBlock_reads s)⟩
  | tdhMngRd => exact ⟨rfl, nofun, answers_withOuts (mngRd_reads s)⟩
  | tdhMemRd => exact ⟨rfl, nofun, answers_withOuts (memRd_reads s)⟩
  | tdhMngWr => exact ⟨rfl, nofun, answers_withOuts (mngWr_reads s)⟩
  | tdhMrExtend => exact ⟨rfl, nofun, answers_withOuts (mrExtend_reads s)⟩
  | tdhMrFinalize => exact ⟨rfl, nofun, mrFinalize_reads s⟩
  | tdhVpFlush => exact ⟨rfl, nofun, vpFlush_reads s⟩
  | tdhMngVpflushdone => exact ⟨rfl, nofun, mngVpflushdone_reads s⟩
  | tdhMngKeyFreeid => exact ⟨rfl, nofun, mngKeyFreeid_reads s⟩
  | tdhMngInit => exact ⟨rfl, nofun, answers_withOuts (mngInit_reads s)⟩
  | tdhVpInit => exact ⟨rfl, nofun, vpInit_reads s⟩
  | tdhPhymemPageRdmd => exact ⟨rfl, nofun, answers_withOuts (phymemPageRdmd_reads s)⟩
  | tdhMemSeptRd => exact ⟨rfl, nofun, answers_withOuts (memSeptRd_reads s)⟩
  | tdhVpRd => exact ⟨rfl, nofun, answers_withOuts (vpRd_reads s)⟩
  | tdhMngKeyReclaimid => exact ⟨rfl, nofun, mngKeyReclaimid_reads s⟩
  | tdhSysInit => exact ⟨rfl, nofun, answers_withOuts (sysInit_reads s)⟩
  | tdhSysLpInit => exact ⟨rfl, nofun, answers_withOuts (sysLpInit_reads s)⟩
  | tdhMemTrack => exact ⟨rfl, nofun, memTrack_reads s⟩
  | tdhMemRangeUnblock => exact ⟨rfl, nofun, answers_withOuts (memRangeUnblock_reads s)⟩
  | tdhVpWr => exact ⟨rfl, nofun, answers_withOuts (vpWr_reads s)⟩
  | tdhSysLpShutdown => exact ⟨rfl, nofun, sysLpShutdown_reads s⟩
  | tdhSysConfig => exact ⟨rfl, nofun, sysConfig_reads s⟩
  | _ => simp at h

/-- The host-side functions that free a page of the module's own. -/
theorem hostBody_alike {i : Instr} {s : State}
    (h : i ∈ [.tdhMemPagePromote, .tdhPhymemPageReclaim, .tdhMemPageRemove, .tdhMemSeptRemove]) :
    i.side = .seamcall ∧ i ≠ .tdhMemWr ∧ Answers (hostBody i s) (ReadsAlike s) := by
  simp only [List.mem_cons, List.not_mem_nil, or_false] at h
  obtain rfl | rfl | rfl | rfl := h
  · exact ⟨rfl, nofun, answers_withOuts (memPagePromote_alike s)⟩
  · exact ⟨rfl, nofun, answers_withOuts (phymemPageReclaim_alike s)⟩
  · exact ⟨rfl, nofun, answers_withOuts (memPageRemove_alike s)⟩
  · exact ⟨rfl, nofun, answers_withOuts (memSeptRemove_alike s)⟩

/-- Settles O52: each function's answers, and the states in which a call fails, read as the first state does. -/
theorem hostMemoryUntouched : Obligations.HostMemoryUntouched := by
  intro i s t calls he
  refine ⟨fun member => ?_, fun member => ?_, ?_, ?_⟩
  · obtain ⟨side, other, answers⟩ := hostBody_reads (s := s) member
    have reads : SameReads s t := exec_host_post side other calls he id answers
    exact ⟨reads.mem, reads.readByte⟩
  · obtain ⟨side, other, answers⟩ := hostBody_alike (s := s) member
    have alike : ReadsAlike s t := exec_host_post side other calls he (ReadsAlike.refl s).same answers
    exact ⟨alike.mem, alike.readByte⟩
  · rintro rfl
    refine exec_host_post (i := .tdhMngKeyConfig) (Q := fun t => t.mem = s.mem ∧ ∀ r, tblGet s.tdrs (s.hreg .rcx).toNat = some r →
      ∀ hkid a, hkid ≠ r.hkid → readByte t hkid a = readByte s hkid a) rfl nofun calls he
      (fun reads => ⟨reads.mem, fun r _ => (reads.butUnder r.hkid).2⟩) (answers_mono (mngKeyConfig_butUnder s) ?_)
    rintro u ⟨r, tdr, mem, reads⟩
    refine ⟨mem, fun r' tdr' => ?_⟩
    obtain rfl : r = r' := Option.some.inj (tdr.symm.trans tdr')
    exact reads
  · rintro rfl
    exact exec_host_post (i := .tdhSysKeyConfig) rfl nofun calls he (fun reads => reads.butUnder s.globalHkid)
      (sysKeyConfig_butUnder s)

/-- Settles O53: what initialises a page stores whole lines of it, as the page is aligned. -/
theorem hostPageStoresStayInside : Obligations.HostPageStoresStayInside := by
  intro i s t calls canonical he
  have inside (page : Nat) (side : i.side = .seamcall) (other : i ≠ .tdhMemWr)
      (answers : Answers (hostBody i s) (OutsidePage page s)) : OutsidePage page s t :=
    exec_host_post side other calls he (fun reads => ((ReadsAlike.refl s).same reads).outside) answers
  constructor <;> intro member <;> simp only [List.mem_cons, List.not_mem_nil, or_false] at member <;>
    obtain rfl | rfl | rfl | rfl := member
  · exact inside _ rfl nofun (mngCreate_outside canonical)
  · exact inside _ rfl nofun (mngAddcx_outside canonical)
  · exact inside _ rfl nofun (vpCreate_outside canonical)
  · exact inside _ rfl nofun (vpAddcx_outside canonical)
  · exact inside _ rfl nofun (answers_withOuts (memSeptAdd_outside canonical))
  · exact inside _ rfl nofun (answers_withOuts (memPageAdd_outside canonical))
  · exact inside _ rfl nofun (answers_withOuts (memPageDemote_outside canonical))
  · exact inside _ rfl nofun (answers_withOuts (memPageRelocate_outside canonical))

end Sys2Proof.Machine
end

section
/-! PROOFS. What a guest-side function leaves alone (O54; 44_tdcall.md, 30_encoding.md): a function that returns to its
guest has kept the frame; one that does not has made a TD exit, or TDX is disabled. -/

namespace Sys2Proof.Machine

open Safety

/-! ## The frame, and how a guest-side function can end -/

/-- What the guest-side function `i` of the VCPU `v` leaves alone. -/
structure GuestKeeps (i : Instr) (v : Nat) (s t : State) : Prop where
  rest : t = { s with
    vps := t.vps, tdcss := t.tdcss, sept := t.sept, locks := t.locks, mem := t.mem, raceLost := t.raceLost }
  otherVps : ∀ w, w ≠ v → tblGet t.vps w = tblGet s.vps w
  otherLocks : ∀ id, (∀ a, id ≠ .septEntry a) → lockState t.locks id = lockState s.locks id
  septLocks : i ≠ .tdgMemPageAccept → t.sept = s.sept ∧ t.locks = s.locks
  mem : i ∉ [Instr.tdgMrReport, .tdgMemPageAccept] → t.mem = s.mem
  tdcss : i ∉ [Instr.tdgVmWr, .tdgMrRtmrExtend] → t.tdcss = s.tdcss

/-- How a guest-side function ends: it returns to its guest, or the guest no longer runs, or TDX is disabled. -/
inductive GuestResult (i : Instr) (v : Nat) (s t : State) : Prop where
  | returns (kept : GuestKeeps i v s t)
  | exits (stopped : t.lp.curVcpu = none)
  | disabled (off : t.seamDisabled = true)

section
variable {i : Instr} {v : Nat} {s t : State}

theorem GuestKeeps.refl : GuestKeeps i v s s :=
  ⟨rfl, fun _ _ => rfl, fun _ _ => rfl, fun _ => ⟨rfl, rfl⟩, fun _ => rfl, fun _ => rfl⟩

theorem GuestKeeps.trans {u : State} (h : GuestKeeps i v s t) (k : GuestKeeps i v t u) : GuestKeeps i v s u where
  rest := k.rest.trans (by rw [h.rest])
  otherVps w other := (k.otherVps w other).trans (h.otherVps w other)
  otherLocks id other := (k.otherLocks id other).trans (h.otherLocks id other)
  septLocks other := ⟨(k.septLocks other).1.trans (h.septLocks other).1, (k.septLocks other).2.trans (h.septLocks other).2⟩
  mem other := (k.mem other).trans (h.mem other)
  tdcss other := (k.tdcss other).trans (h.tdcss other)

theorem GuestKeeps.reads (h : GuestKeeps i v s t) (other : i ∉ [Instr.tdgMrReport, .tdgMemPageAccept]) : SameReads s t :=
  ⟨h.mem other, by rw [h.rest], by rw [h.rest], by rw [h.rest], by rw [h.rest]⟩

/-! ## The operations that a function is made of -/

variable (h : GuestKeeps i v s t)
include h

theorem GuestKeeps.modVp {f : Tdvps → Tdvps} : GuestKeeps i v s (t.modVp v f) :=
  h.trans ⟨rfl, fun _ other => modVp_get_other _ _ other, fun _ _ => rfl, fun _ => ⟨rfl, rfl⟩, fun _ => rfl, fun _ => rfl⟩

theorem GuestKeeps.guestReturn {a d : Nat} {outs : List (Reg × Word)} : GuestKeeps i v s (guestReturn t v a d outs) :=
  h.modVp

theorem GuestKeeps.modTdcs {a : Nat} {f : Tdcs → Tdcs} (writes : i ∈ [Instr.tdgVmWr, .tdgMrRtmrExtend]) :
    GuestKeeps i v s (t.modTdcs a f) :=
  h.trans ⟨rfl, fun _ _ => rfl, fun _ _ => rfl, fun _ => ⟨rfl, rfl⟩, fun _ => rfl, absurd writes⟩

theorem GuestKeeps.setRaceLost {b : Bool} : GuestKeeps i v s { t with raceLost := b } :=
  h.trans ⟨rfl, fun _ _ => rfl, fun _ _ => rfl, fun _ => ⟨rfl, rfl⟩, fun _ => rfl, fun _ => rfl⟩

/-- A step on memory alone. -/
theorem GuestKeeps.onlyMem {u : State} (frame : ∃ m, u = { t with mem := m })
    (stores : i ∈ [Instr.tdgMrReport, .tdgMemPageAccept]) : GuestKeeps i v s u := by
  obtain ⟨m, rfl⟩ := frame
  exact h.trans ⟨rfl, fun _ _ => rfl, fun _ _ => rfl, fun _ => ⟨rfl, rfl⟩, absurd stores, fun _ => rfl⟩

variable (inRange : s.curLp < s.lps.length)
include inRange

/-- A TD exit stops the guest, or the module is fatally in error. -/
theorem GuestKeeps.asyncTdExit (x : VmExit) (cls : ExitClass) (q : Word) :
    GuestResult i v s (asyncTdExit t v x cls q) := by
  have curLp : t.curLp = s.curLp := by rw [h.rest]
  have lps : t.lps = s.lps := by rw [h.rest]
  unfold Machine.asyncTdExit
  dsimp only
  split
  · split
    · have inRangeT : t.curLp < t.lps.length := by rwa [curLp, lps]
      refine .exits ?_
      rw [modLp_lp_of (s := t) _ inRangeT ?_ ?_]
      · rfl
      · rfl
      · rfl
    · exact .disabled rfl
  · exact .disabled rfl

omit h inRange in
theorem GuestResult.serveExit {u : State} (handled : GuestResult i v s u) :
    GuestResult i v s (serveExit t v u) := by
  unfold Machine.serveExit
  split
  next off => exact .disabled off
  next =>
    split
    · exact handled
    · exact .disabled rfl

theorem GuestKeeps.guestExit (x : VmExit) (cls : ExitClass) (q : Word) : GuestResult i v s (guestExit t v x cls q) :=
  (h.asyncTdExit inRange x cls q).serveExit

theorem GuestKeeps.guestFault (x : VmExit) (vector : Nat) (error : Option Word) :
    GuestResult i v s (guestFault t v x vector error) := by
  refine GuestResult.serveExit ?_
  split
  · exact h.asyncTdExit inRange _ _ _
  · exact .returns h.modVp

theorem GuestKeeps.guestVe (x : VmExit) : GuestResult i v s (guestVe t v x) := by
  unfold Machine.guestVe
  split
  · exact .returns h
  · split
    · exact h.guestFault inRange _ _ _
    · split
      · exact h.guestFault inRange _ _ _
      · exact (GuestResult.returns h.modVp).serveExit

theorem GuestKeeps.finishGuest {r : GFn State} (hr : Answers r (GuestResult i v s)) :
    GuestResult i v s (finishGuest t v r) := by
  unfold Machine.finishGuest
  split
  · exact hr _ rfl
  · exact .returns h.guestReturn
  · exact h.guestVe inRange _
  · exact h.guestExit inRange _ _ _
  · exact .disabled rfl
  · exact .disabled rfl

end

/-! ## Entry locks of the Secure EPT -/

theorem lockState_filter_other (l : Locks) {id j : LockId} (other : j ≠ id) :
    lockState (l.filter fun e => e.1 != id) j = lockState l j := by
  induction l with
  | nil => rfl
  | cons e l ih =>
    obtain ⟨k, st⟩ := e
    by_cases dropped : k = id
    · simp [dropped, lockState, ih, Ne.symm other]
    · simp [dropped, lockState, ih]

theorem lockState_release_other (l : Locks) {id j : LockId} (other : j ≠ id) :
    lockState (release l id) j = lockState l j := by
  unfold release
  split
  · exact lockState_setLock_other other
  · exact lockState_filter_other l other

theorem lockState_acquire_other {l l' : Locks} {id j : LockId} {m : LockMode} (got : acquire l id m = some l')
    (other : j ≠ id) : lockState l' j = lockState l j := by
  unfold acquire at got
  split at got <;> cases got
  · simp [lockState, Ne.symm other]
  · simp [lockState, Ne.symm other]
  · exact lockState_setLock_other other

/-! ## TDG.MEM.PAGE.ACCEPT -/

/-- The locks but for the Secure EPT entry locks. -/
def OnlyEntryLocks (l l' : Locks) : Prop := ∀ id, (∀ a, id ≠ .septEntry a) → lockState l' id = lockState l id

section
variable {v : Nat} {s t : State} (h : GuestKeeps .tdgMemPageAccept v s t)
include h

theorem GuestKeeps.setLocks {l : Locks} (only : OnlyEntryLocks t.locks l) :
    GuestKeeps .tdgMemPageAccept v s { t with locks := l } :=
  h.trans ⟨rfl, fun _ _ => rfl, only, absurd rfl, fun _ => rfl, fun _ => rfl⟩

theorem GuestKeeps.setSept {a : Nat} {e : SeptEntry} : GuestKeeps .tdgMemPageAccept v s (t.setSept a e) :=
  h.trans ⟨rfl, fun _ _ => rfl, fun _ _ => rfl, absurd rfl, fun _ => rfl, fun _ => rfl⟩

theorem GuestKeeps.zeroChunks (hkid : Nat) (r : AcceptRun) (n : Nat) :
    GuestKeeps .tdgMemPageAccept v s (zeroChunks t hkid r n) := by
  unfold Machine.zeroChunks
  split
  · exact h.onlyMem ⟨_, rfl⟩ (by simp)
  · exact h

end

section
variable {v : Nat} {s : State} (inRange : s.curLp < s.lps.length)
include inRange

/-- One step of an acceptance changes the locks of Secure EPT entries alone. -/
theorem acceptRun_result (hkid : Nat) {base held : Locks} (r : AcceptRun) (fresh : Bool)
    (released : OnlyEntryLocks s.locks base) (taken : OnlyEntryLocks s.locks held) :
    GuestResult .tdgMemPageAccept v s (acceptRun s v hkid base held r fresh) := by
  have zeroed (n : Nat) : GuestKeeps .tdgMemPageAccept v s (zeroChunks s hkid r n) :=
    GuestKeeps.zeroChunks .refl hkid r n
  have sameLocks (n : Nat) : (zeroChunks s hkid r n).locks = s.locks := by
    unfold zeroChunks
    split <;> rfl
  have paused (n : Nat) {q : AcceptRun} :
      GuestResult .tdgMemPageAccept v s (acceptPause (zeroChunks s hkid r n) v held q) :=
    .returns ((zeroed n).setLocks (by rwa [sameLocks])).modVp
  have aborted (n : Nat) : GuestResult .tdgMemPageAccept v s (acceptAbort (zeroChunks s hkid r n) v base) :=
    .returns ((zeroed n).setLocks (by rwa [sameLocks])).modVp
  unfold acceptRun
  split
  · split
    · exact paused _
    · exact aborted _
  · exact paused _
  · exact aborted _
  · split
    · exact .disabled rfl
    · have closed := ((zeroed r.chunks).setLocks (l := base) (by rwa [sameLocks])).modVp (f := fun p => { p with accept := none })
      unfold acceptFinish
      dsimp only
      split
      · exact .returns closed.setSept.guestReturn
      · exact closed.guestExit inRange _ _ _

theorem acceptStart_result (t : Tdr) (c : Tdcs) (p : Tdvps) :
    Answers (acceptStart s v t c p) (GuestResult .tdgMemPageAccept v s) := by
  unfold acceptStart
  iterate 4 refine answers_bind fun _ _ => ?_
  refine answers_bind fun held got => answers_pure ?_
  have taken : OnlyEntryLocks s.locks held := fun id other =>
    lockState_acquire_other (gOr_eq_ok.1 got) (other _)
  exact acceptRun_result inRange _ _ _ (fun _ _ => rfl) taken

theorem memPageAccept_result : Answers (memPageAccept s v) (GuestResult .tdgMemPageAccept v s) := by
  unfold memPageAccept
  refine answers_bind fun ⟨_, t, c, p⟩ _ => ?_
  dsimp only
  split
  · exact answers_pure (acceptRun_result inRange _ _ _ (fun id other => lockState_release_other _ (other _))
      fun _ _ => rfl)
  · exact acceptStart_result inRange t c p

/-! ## The other functions -/

/-- TDG.VP.VMCALL is a TD exit (R549). -/
theorem vpVmcall_result : Answers (vpVmcall s v) (GuestResult .tdgVpVmcall v s) := by
  unfold vpVmcall
  iterate 3 refine answers_bind fun _ _ => ?_
  exact answers_pure (.exits (congrArg Lp.curVcpu (modLp_lp _ inRange)))

omit inRange in
/-- The bytes of an operand are stored in memory. -/
theorem guestWrite_frame (t : State) (o : GuestOperand) (bs : List Byte) :
    ∃ m, guestWrite t o bs = { t with mem := m } := by
  unfold guestWrite writeTyped
  split
  · exact writeUncached_frame t _ _ _
  · exact ⟨_, rfl⟩

variable (s) in
theorem guestBody_result (i : Instr) (side : i.side = .tdcall) :
    Answers (guestBody i s v) (GuestResult i v s) := by
  cases i with
  | tdgVpVmcall => exact vpVmcall_result inRange
  | tdgVpInfo => exact answers_bind fun _ _ => answers_pure (.returns (GuestKeeps.guestReturn .refl))
  | tdgMemPageAccept => exact memPageAccept_result inRange
  | tdgMrRtmrExtend =>
    unfold guestBody mrRtmrExtend
    repeat refine answers_bind fun _ _ => ?_
    exact answers_pure (.returns (GuestKeeps.modTdcs .refl (by simp)).guestReturn)
  | tdgVpVeinfoGet =>
    unfold guestBody vpVeinfoGet
    repeat refine answers_bind fun _ _ => ?_
    exact answers_pure (.returns (GuestKeeps.modVp .refl).guestReturn)
  | tdgMrReport =>
    unfold guestBody mrReport
    repeat refine answers_bind fun _ _ => ?_
    exact answers_pure (.returns (GuestKeeps.onlyMem .refl (guestWrite_frame s _ _) (by simp)).guestReturn)
  | tdgVpCpuidveSet =>
    unfold guestBody vpCpuidveSet
    repeat refine answers_bind fun _ _ => ?_
    exact answers_pure (.returns (GuestKeeps.modVp .refl).guestReturn)
  | tdgVmRd =>
    refine answers_gWithOuts ?_
    unfold vmRd
    repeat refine answers_bind fun _ _ => ?_
    exact answers_pure (.returns (GuestKeeps.guestReturn .refl))
  | tdgVmWr =>
    refine answers_gWithOuts (answers_bind fun r alone => answers_ite (fun _ => ?_) fun _ => ?_)
    · exact answers_pure (.returns (GuestKeeps.setRaceLost .refl).guestReturn)
    · refine answers_pure ((?_ : Answers (vmWrAlone s v) (GuestResult .tdgVmWr v s)) r alone)
      unfold vmWrAlone
      repeat refine answers_bind fun _ _ => ?_
      exact answers_pure (.returns (GuestKeeps.modTdcs .refl (by simp)).guestReturn)
  | _ => cases side

end

/-- Settles O54: the function has returned to its guest (`guestBody_result`), as neither has the guest stopped nor has
TDX been disabled. -/
theorem guestFunctionFrame : Obligations.GuestFunctionFrame := by
  intro i s t v td r c p side calls he running enabled
  have inRange := calls.1.1
  have entered : GuestKeeps i v s (s.tdcallEntered v) := GuestKeeps.modVp .refl
  rw [exec_guest i side, guestCall_finish calls] at he
  cases he
  have result := GuestKeeps.finishGuest (i := i) (v := v) (s := s.tdcallEntered v) (t := s.tdcallEntered v) .refl inRange
    (guestBody_result (s.tdcallEntered v) inRange i side)
  cases result with
  | exits stopped => simp [stopped] at running
  | disabled off => simp [off] at enabled
  | returns returned =>
    have kept := entered.trans returned
    refine ⟨?_, ?_, ?_, ?_, ?_, ?_, ?_, ?_, ?_, ?_, ?_, kept.otherLocks, kept.otherVps, kept.septLocks,
      fun other => ⟨kept.mem other, (kept.reads other).readByte⟩, kept.tdcss⟩ <;> rw [kept.rest]

end Sys2Proof.Machine
end

section
/-! PROOFS. TDX stays disabled until a platform reset (O48; 60_exceptions.md rule R750): with TDX disabled, SEAMCALL fails at
once and a VM exit shuts the logical processor down, so that neither runs the module; nothing else touches the flag. -/

namespace Sys2Proof.Machine

open Safety

/-! ## VM exits with TDX disabled -/

section
variable {t : State} (off : t.seamDisabled = true)
include off

/-- A VM exit shuts the logical processor down. -/
@[simp] theorem serveExit_off (v : Nat) (u : State) : (serveExit t v u).seamDisabled = true := by
  rw [serveExit, if_pos off]
  exact off

@[simp] theorem guestFault_off (v : Nat) (x : VmExit) (vector : Nat) (e : Option Word) :
    (guestFault t v x vector e).seamDisabled = true := serveExit_off off v _

@[simp] theorem guestExit_off (v : Nat) (x : VmExit) (cls : ExitClass) (q : Word) :
    (guestExit t v x cls q).seamDisabled = true := serveExit_off off v _

@[simp] theorem unexpectedExit_off (v : Nat) (x : VmExit) : (unexpectedExit t v x).seamDisabled = true :=
  serveExit_off off v _

@[simp] theorem emulated_off (v : Nat) (x : VmExit) (f : Tdvps → Tdvps) : (emulated t v x f).seamDisabled = true :=
  serveExit_off off v _

@[simp] theorem injectNmiStep_off (v : Nat) : (injectNmiStep t v).seamDisabled = true := serveExit_off off v _

@[simp] theorem guestVe_off (v : Nat) (x : VmExit) : (guestVe t v x).seamDisabled = true := by
  unfold guestVe
  split
  · exact off
  · simp [apply_ite State.seamDisabled, off]

@[simp] theorem cpuException_off (v : Nat) (p : Tdvps) (vector : Nat) (e : Option Word) (q : Word) :
    (cpuException t v p vector e q).seamDisabled = true := by
  simp [cpuException, apply_ite State.seamDisabled, off]

@[simp] theorem cpuUd_off (v : Nat) (p : Tdvps) : (cpuUd t v p).seamDisabled = true := cpuException_off off v p _ _ _

@[simp] theorem cpuGp_off (v : Nat) (p : Tdvps) : (cpuGp t v p).seamDisabled = true := cpuException_off off v p _ _ _

theorem takeBoundaryExit_off (v : Nat) (b : BoundaryExit) : (takeBoundaryExit t v b).seamDisabled = true := by
  cases b <;> simp [takeBoundaryExit, off]

/-! ### Machine checks -/

theorem asyncTdExit_off (v : Nat) (x : VmExit) (cls : ExitClass) (q : Word) :
    (asyncTdExit t v x cls q).seamDisabled = true := by
  unfold asyncTdExit
  dsimp only
  split
  · split
    · exact off
    · rfl
  · rfl

omit off in
theorem broadcastExit_off (x : VmExit) (lps : List Nat) {t : State} (off : t.seamDisabled = true) :
    (broadcastExit x t lps).seamDisabled = true := by
  induction lps generalizing t with
  | nil => exact off
  | cons i lps ih =>
    unfold broadcastExit
    split
    · split
      · exact ih rfl
      · exact ih (asyncTdExit_off (t := { t with curLp := i }) off _ _ _ _)
    · split
      · exact ih rfl
      · exact ih off
    · exact ih off

@[simp] theorem machineCheckHit_off (v : Nat) (x : VmExit) : (machineCheckHit t v x).seamDisabled = true := by
  unfold machineCheckHit broadcastOthers
  split
  · exact guestExit_off off _ _ _ _
  · exact broadcastExit_off _ _ (guestExit_off off _ _ _ _)

@[simp] theorem guestMachineCheck_off (v : Nat) : (guestMachineCheck t v).seamDisabled = true :=
  machineCheckHit_off off v _

end

/-! ## Memory instructions -/

@[simp] theorem writeParts_seamDisabled (s : State) (ms : List PlacedPart) (bs : List Byte) :
    (writeParts s ms bs).seamDisabled = s.seamDisabled := by
  induction ms generalizing s bs with
  | nil => rfl
  | cons m ms ih => exact (ih _ _).trans (writeTyped_seamDisabled ..)

theorem performAccess_seamDisabled (s : State) (p : Tdvps) (a : PlacedAccess) :
    (performAccess s p a).1.seamDisabled = s.seamDisabled := by
  unfold performAccess
  cases a.op <;> simp

@[simp] theorem performAll_seamDisabled (s : State) (p : Tdvps) (as : List PlacedAccess) :
    (performAll s p as).1.seamDisabled = s.seamDisabled := by
  induction as generalizing s p with
  | nil => rfl
  | cons a as ih => exact (ih _ _).trans (performAccess_seamDisabled s p a)

theorem fillParts_seamDisabled (s : State) (p : Tdvps) (ms : List PlacedPart) :
    (fillParts s p ms).seamDisabled = s.seamDisabled := by
  induction ms generalizing s with
  | nil => rfl
  | cons m ms ih =>
    unfold fillParts
    split
    · exact ih _
    · exact ih _

theorem fillAll_seamDisabled (s : State) (p : Tdvps) (as : List PlacedAccess) :
    (as.foldl (fun s a => fillParts s p a.parts) s).seamDisabled = s.seamDisabled := by
  induction as generalizing s with
  | nil => rfl
  | cons a as ih => exact (ih _).trans (fillParts_seamDisabled s p a.parts)

section
variable {t : State} (off : t.seamDisabled = true)
include off

theorem eptViolation_off (v : Nat) (p : Tdvps) (c : Tdcs) (x : VmExit) (sup priv : Bool) :
    (eptViolation t v p c x sup priv).seamDisabled = true := by
  simp [eptViolation, zeroStepExit, apply_ite State.seamDisabled, off]

theorem accessFault_off (v : Nat) (c : Tdcs) (p : Tdvps) (locked : Bool) (e : AccessFault) :
    (accessFault t v c p locked e).seamDisabled = true := by
  cases e with
  | illegalGpa => exact cpuException_off off _ _ _ _ _
  | violation => exact eptViolation_off off _ _ _ _ _ _
  | misconfig => exact guestExit_off off _ _ _ _
  | poison => exact guestMachineCheck_off off _

theorem completeAccess_off (v : Nat) (c : Tdcs) (p : Tdvps) (as : List PlacedAccess) (ws : List NativeWrite) (n : Nat)
    (busLock : Bool) : (completeAccess t v c p as ws n busLock).seamDisabled = true := by
  simp [completeAccess, busLockTrap, apply_ite State.seamDisabled, off]

@[simp] theorem guestAccess_off (v : Nat) (r : Tdr) (c : Tdcs) (p : Tdvps) (as : List MemAccess)
    (ws : List NativeWrite) (n : Nat) (useTlb fillTlb busLock : Bool) :
    (guestAccess t v r c p as ws n useTlb fillTlb busLock).seamDisabled = true := by
  unfold guestAccess
  split
  · exact accessFault_off off _ _ _ _ _
  · refine completeAccess_off ?_ _ _ _ _ _ _ _
    split
    · exact (fillAll_seamDisabled ..).trans off
    · exact off

/-! ## The other instructions -/

omit off in
theorem ite_off {c : Prop} [Decidable c] {x y : State} (hx : x.seamDisabled = true) (hy : y.seamDisabled = true) :
    (if c then x else y).seamDisabled = true := by
  split
  · exact hx
  · exact hy

theorem opUd_off (v : Nat) (p : Tdvps) (i : UdInstr) (x : InstrInfo) : (opUd t v p i x).seamDisabled = true := by
  unfold opUd
  split <;> simp [off]

theorem opRdpmc_off (v : Nat) (p : Tdvps) (x : InstrInfo) : (opRdpmc t v p x).seamDisabled = true := by
  refine ite_off (cpuGp_off off _ _) (ite_off (guestFault_off off _ _ _ _) ?_)
  split <;> simp [off]

theorem opMovToCr0_off (v : Nat) (p : Tdvps) (x : Word) (i : InstrInfo) :
    (opMovToCr0 t v p x i).seamDisabled = true := by
  refine ite_off (cpuGp_off off _ _) (ite_off ?_ (ite_off (cpuGp_off off _ _) off))
  split <;> simp [off]

theorem opMovToCr4_off (v : Nat) (p : Tdvps) (c : Tdcs) (x : Word) (i : InstrInfo) :
    (opMovToCr4 t v p c x i).seamDisabled = true := by
  refine ite_off (cpuGp_off off _ _) (ite_off ?_ (ite_off (cpuGp_off off _ _) off))
  split <;> simp [off]

/-- What ends an access to a debug register before it is made. -/
theorem drGuard_off {v : Nat} {p : Tdvps} {d : Nat} {store : Bool} {r : Reg} {n : Nat} {u : State}
    (ended : drGuard t v p d store r n = some u) : u.seamDisabled = true := by
  unfold drGuard at ended
  split_ifs at ended <;> cases ended <;> simp [off]

theorem opMovToDr_off (v : Nat) (p : Tdvps) (d : Nat) (r : Reg) (n : Nat) :
    (opMovToDr t v p d r n).seamDisabled = true := by
  unfold opMovToDr
  split
  next ended => exact drGuard_off off ended
  next => exact ite_off (cpuGp_off off _ _) off

theorem opMovFromDr_off (v : Nat) (p : Tdvps) (d : Nat) (r : Reg) (n : Nat) :
    (opMovFromDr t v p d r n).seamDisabled = true := by
  unfold opMovFromDr
  split
  next ended => exact drGuard_off off ended
  next => exact off

theorem opRdmsr_off (v : Nat) (p : Tdvps) (c : Tdcs) : (opRdmsr t v p c).seamDisabled = true := by
  refine ite_off (cpuGp_off off _ _) (ite_off (ite_off (cpuGp_off off _ _) off) ?_)
  split <;> simp [off]

theorem opWrmsr_off (v : Nat) (p : Tdvps) (c : Tdcs) : (opWrmsr t v p c).seamDisabled = true := by
  refine ite_off (cpuGp_off off _ _) (ite_off ?_ ?_)
  · simp [nativeWrmsr, apply_ite State.seamDisabled, off]
  · split <;> simp [off]

theorem opCpuid_off (v : Nat) (p : Tdvps) (c : Tdcs) : (opCpuid t v p c).seamDisabled = true := by
  refine ite_off (guestVe_off off _ _) ?_
  split <;> simp [off]

theorem opXsetbv_off (v : Nat) (p : Tdvps) : (opXsetbv t v p).seamDisabled = true := by
  refine ite_off (cpuUd_off off _ _) (ite_off (cpuGp_off off _ _) ?_)
  split <;> simp [off]

theorem opSoftInt_off (v : Nat) (p : Tdvps) (i : SoftInt) (n : Nat) : (opSoftInt t v p i n).seamDisabled = true := by
  refine ite_off (cpuUd_off off _ _) (ite_off off ?_)
  split
  · exact off
  · split
    · exact ite_off (unexpectedExit_off off _ _) off
    · exact off

theorem guestOp_off (v : Nat) (r : Tdr) (c : Tdcs) (p : Tdvps) (op : GuestOp) :
    (guestOp t v r c p op).seamDisabled = true := by
  cases op with
  | ud => exact opUd_off off _ _ _ _
  | ve => simp [guestOp, opVe, apply_ite State.seamDisabled, off]
  | wbnoinvd => simp [guestOp, opWbnoinvd, apply_ite State.seamDisabled, off]
  | pconfig => simp [guestOp, opPconfig, apply_ite State.seamDisabled, off]
  | enqcmd | enclu => simp [guestOp, off]
  | enqcmds => simp [guestOp, opEnqcmds, apply_ite State.seamDisabled, off]
  | rdpmc => exact opRdpmc_off off _ _ _
  | senduipi => simp [guestOp, opSenduipi, apply_ite State.seamDisabled, off]
  | movToCr0 => exact opMovToCr0_off off _ _ _ _
  | movToCr4 => exact opMovToCr4_off off _ _ _ _ _
  | movFromCr0 => simp [guestOp, opMovFromCr0, loadReg, apply_ite State.seamDisabled, off]
  | movFromCr4 => simp [guestOp, opMovFromCr4, loadReg, apply_ite State.seamDisabled, off]
  | movToCr3 => simp [guestOp, opMovToCr3, apply_ite State.seamDisabled, off]
  | movFromCr3 => simp [guestOp, opMovFromCr3, loadReg, apply_ite State.seamDisabled, off]
  | movToCr8 => simp [guestOp, opMovToCr8, apply_ite State.seamDisabled, off]
  | movFromCr8 => simp [guestOp, opMovFromCr8, loadReg, apply_ite State.seamDisabled, off]
  | movToDr => exact opMovToDr_off off _ _ _ _ _
  | movFromDr => exact opMovFromDr_off off _ _ _ _ _
  | rdmsr => exact opRdmsr_off off _ _ _
  | wrmsr => exact opWrmsr_off off _ _ _
  | cpuid => exact opCpuid_off off _ _ _
  | xsetbv => exact opXsetbv_off off _ _
  | xgetbv => simp [guestOp, opXgetbv, apply_ite State.seamDisabled, off]
  | rdtsc => simp [guestOp, opRdtsc, apply_ite State.seamDisabled, off]
  | rdtscp => simp [guestOp, opRdtscp, apply_ite State.seamDisabled, off]
  | iret | other => exact off
  | mem => simp [guestOp, off]
  | exception => simp [guestOp, opException, apply_ite State.seamDisabled, off]
  | softInt => exact opSoftInt_off off _ _ _ _
  | controlled => simp [guestOp, opControlled, apply_ite State.seamDisabled, off]
  | umonitor => simp [guestOp, opUmonitor, opOther, apply_ite State.seamDisabled, off]
  | keyLocker => simp [guestOp, opKeyLocker, opOther, apply_ite State.seamDisabled, off]

/-! ## Events -/

omit off in
theorem guestEvent_off (v : Nat) (e : Event) {t : State} (off : t.seamDisabled = true) (p : Tdvps) (lock : Bool) :
    (guestEvent t v p lock e).seamDisabled = true := by
  induction e generalizing t p lock with
  | externalInterrupt =>
    simp [guestEvent, physicalInterrupt, processPosted, apply_ite State.seamDisabled, off]
  | smi => simp [guestEvent, smiExit, apply_ite State.seamDisabled, off]
  | pasidFailure => simp [guestEvent, pasidExit, apply_ite State.seamDisabled, off]
  | notification => exact guestExit_off off _ _ _ _
  | busLocked e ih => exact ih (t := t.modVp v _) off _ _
  | nmi | ioSmi | initSignal | tripleFault | taskSwitch | machineCheck | busLock | nmiWindow
  | virtualInterrupt | entryFailure | debugExit | unbreakable => simp [guestEvent, off]

end

/-! ## Steps -/

section
variable {s t : State} (off : s.seamDisabled = true)
include off

/-- SEAMCALL fails at once, or is an exit of the guest (R321). -/
theorem hostCall_off {sys : Bool} {body : State → Fn State} (h : hostCall sys body s = .next t) :
    t.seamDisabled = true := by
  rcases hostCall_next h with ⟨v, _, rfl⟩ | ⟨_, rfl⟩ | ⟨_, rfl⟩ | ⟨st, _, rfl⟩ | ⟨calls, _, _⟩
  · exact guestFault_off off _ _ _ _
  · exact off
  · exact off
  · exact off
  · obtain ⟨-, -, -, enabled, -⟩ := calls
    simp [enabled] at off

/-- TDCALL is a VM exit. -/
theorem guestCall_off {body : State → Nat → GFn State} (h : guestCall body s = .next t) : t.seamDisabled = true := by
  unfold guestCall at h
  split at h
  next stopped => exact absurd h (lpStop_not_next stopped)
  next => cases h
  next v _ _ =>
    cases h
    unfold guestTdcall
    split
    · rfl
    · exact serveExit_off off _ _

/-- A TDH.MEM.WR that was between its steps 8 and 9 ends there. -/
theorem execTdhMemWr_resumed_off {r : MemWrRun} (run : s.lp.memWr = some r) (h : exec .tdhMemWr s = .next t) :
    t.seamDisabled = true := by
  simp only [exec, execTdhMemWr, run] at h
  cases stop : lpStop s with
  | some o =>
    rw [stop] at h
    exact absurd h (lpStop_not_next stop)
  | none =>
    rw [stop] at h
    cases h
    exact off

theorem exec_off {i : Instr} (h : exec i s = .next t) : t.seamDisabled = true := by
  cases side : i.side with
  | tdcall =>
    rw [exec_guest i side] at h
    exact guestCall_off off h
  | seamcall =>
    by_cases whole : i = .tdhMemWr → s.lp.memWr = none
    · rw [exec_host i side s whole] at h
      exact hostCall_off off h
    · obtain ⟨rfl, paused⟩ := Classical.not_imp.1 whole
      obtain ⟨r, run⟩ := Option.ne_none_iff_exists'.1 paused
      exact execTdhMemWr_resumed_off off run h

theorem unsupportedCall_off (h : unsupportedCall s = .next t) : t.seamDisabled = true := by
  unfold unsupportedCall at h
  split at h
  · exact hostCall_off off h
  · exact guestCall_off off h

theorem callStep_off (h : callStep s = .next t) : t.seamDisabled = true := by
  unfold callStep at h
  split at h
  · split at h
    next stopped => exact absurd h (lpStop_not_next stopped)
    next =>
      cases h
      exact takeBoundaryExit_off off _ _
    next => cases h
  · split at h
    · exact exec_off off h
    · exact unsupportedCall_off off h

theorem guestStep_off {op : GuestOp} (h : guestStep s op = .next t) : t.seamDisabled = true := by
  unfold guestStep at h
  split at h
  next stopped => exact absurd h (lpStop_not_next stopped)
  next => cases h
  next =>
    split at h
    · cases h
    split at h <;> cases h
    · exact takeBoundaryExit_off off _ _
    · exact guestOp_off off _ _ _ _ _

theorem eventStep_off {e : Event} (h : eventStep s e = .next t) : t.seamDisabled = true := by
  unfold eventStep at h
  split at h
  next stopped => exact absurd h (lpStop_not_next stopped)
  next => cases h
  next =>
    split at h
    · cases h
    split at h <;> cases h
    · exact takeBoundaryExit_off off _ _
    · exact guestEvent_off _ _ off _ _

/-! ## The host and the environment -/

omit off in
/-- A step on memory alone. -/
theorem seamDisabled_of_frame {u : State} (frame : ∃ m, u = { s with mem := m }) : u.seamDisabled = s.seamDisabled := by
  obtain ⟨m, rfl⟩ := frame
  rfl

theorem hostOp_off {op : HostOp} (h : hostOp s op = some t) : t.seamDisabled = true := by
  cases op with
  | memRead | pconfig =>
    obtain ⟨_, h⟩ := Option.ite_none_right_eq_some.1 h
    cases h
    exact off
  | memWrite =>
    obtain ⟨_, h⟩ := Option.ite_none_right_eq_some.1 h
    cases h
    exact (writeShared_seamDisabled ..).trans off
  | clflush =>
    obtain ⟨_, h⟩ := Option.ite_none_right_eq_some.1 h
    cases h
    exact (seamDisabled_of_frame (evict_frame s _ _)).trans off
  | wbinvd =>
    cases h
    exact (seamDisabled_of_frame (flushStale_frame _ _)).trans
      ((seamDisabled_of_frame (flushEntries_frame s _)).trans off)
  | wbnoinvd =>
    cases h
    exact (seamDisabled_of_frame (flushStale_frame _ _)).trans
      ((seamDisabled_of_frame (cleanEntries_frame s _)).trans off)
  | setGpr | setRsp | setRip | setRflags | setExt | setDr | setCr2 | setXcr0 | setCr | setSeg | setGdtr | setIdtr | setMsr
  | setMiscEnable | setTscAdjust | invept => cases h; exact off

theorem hostStep_off {op : HostOp} (h : hostStep s op = .next t) : t.seamDisabled = true := by
  unfold hostStep at h
  split at h
  next stopped => exact absurd h (lpStop_not_next stopped)
  split at h
  · cases h
  split at h
  · cases h
  split at h
  next done =>
    cases h
    exact hostOp_off off done
  · cases h

theorem evictStale_off {line hkid : Nat} (h : evictStale s line hkid = some t) : t.seamDisabled = true := by
  unfold evictStale at h
  split at h
  · cases h
    exact off
  · cases h

theorem moduleStore_off {line hkid scope : Nat} (h : moduleStore s line hkid scope = some t) :
    t.seamDisabled = true := by
  unfold moduleStore at h
  split at h
  · cases h
    exact off
  · cases h

theorem fillLine_off {line hkid : Nat} (h : fillLine s line hkid = some t) : t.seamDisabled = true := by
  unfold fillLine at h
  split at h
  · cases h
  · cases h
    exact off

/-- A reload needs TDX enabled (R21): of the environment's choices a platform reset alone can enable it. -/
theorem envOp_off {op : EnvOp} (other : op ≠ .platformReset) (h : envOp s op = some t) : t.seamDisabled = true := by
  cases op with
  | platformReset => exact absurd rfl other
  | moduleReload =>
    obtain ⟨reloads, _⟩ := Option.ite_none_right_eq_some.1 h
    simp [canReload, off] at reloads
  | setEntropy | setRaceLost | setIntrPending | setYield | setApicMode | dropTlb | corrupt => cases h; exact off
  | advanceTsc | dmaRead | dropLock =>
    obtain ⟨_, h⟩ := Option.ite_none_right_eq_some.1 h
    cases h
    exact off
  | dmaWrite =>
    obtain ⟨_, h⟩ := Option.ite_none_right_eq_some.1 h
    cases h
    exact (writeDma_seamDisabled ..).trans off
  | moduleMachineCheck =>
    obtain ⟨_, h⟩ := Option.ite_none_left_eq_some.1 h
    cases h
    rfl
  | evict =>
    obtain ⟨_, h⟩ := Option.ite_none_right_eq_some.1 h
    cases h
    exact (seamDisabled_of_frame (evict_frame s _ _)).trans off
  | evictStale => exact evictStale_off off h
  | moduleStore => exact moduleStore_off off (Option.ite_none_right_eq_some.1 h).2
  | fill => exact fillLine_off off (Option.ite_none_right_eq_some.1 h).2
  | holdLock =>
    obtain ⟨l, _, rfl⟩ := Option.map_eq_some_iff.1 h
    exact off

theorem envStep_off {op : EnvOp} (other : op ≠ .platformReset) (h : envStep s op = .next t) :
    t.seamDisabled = true := by
  unfold envStep at h
  split at h
  next done =>
    cases h
    exact envOp_off off other done
  · cases h

theorem runLabel_off {l : Label} (other : l ≠ .env .platformReset) (h : runLabel s l = .next t) :
    t.seamDisabled = true := by
  cases l with
  | call lp => exact callStep_off (s := { s with curLp := lp }) off h
  | guest lp op => exact guestStep_off (s := { s with curLp := lp }) off h
  | event lp e => exact eventStep_off (s := { s with curLp := lp }) off h
  | host lp op => exact hostStep_off (s := { s with curLp := lp }) off h
  | env op => exact envStep_off off (fun reset => other (reset ▸ rfl)) h

end

/-- Settles O48: whatever the step runs but a platform reset keeps TDX disabled (`callStep_off`, `runLabel_off`). -/
theorem disabledUntilPlatformReset : Obligations.DisabledUntilPlatformReset := by
  intro s t off h
  unfold step at h
  split at h
  next => exact .inl (callStep_off (s := s.ticked) off h)
  next l rest schedule =>
    by_cases reset : l = .env .platformReset
    · exact .inr ⟨rest, reset ▸ schedule⟩
    · split at h
      · exact .inl (runLabel_off (s := { s.ticked with schedule := rest }) off reset h)
      · cases h

end Sys2Proof.Machine
end

section
/-! PROOFS. What ends a guest's instruction or its run: #VE and EPT-violation TD exits (O55), external interrupts (O57;
60_exceptions.md rules R700 to R712), and SEAMCALL in a guest (O56; 45_cpu_virt.md rule R577). -/

namespace Sys2Proof.Machine

open Safety

/-! ## TD exits of a running guest -/

/-- The VM exit of a running guest that the module ends with a TD exit of class `success`. -/
theorem guestExit_from {s : State} {v td : Nat} {t : Tdr} {c : Tdcs} {p : Tdvps} (x : VmExit) (q : Word)
    (runs : RunsGuest s v td t c p) (apic : s.lp.apicModeOk = true) (held : entryLocksHeld s.locks v td = true) :
    TdExitFrom s (guestExit s v x .success q) v p c x .success q := by
  obtain ⟨inRange, -, -, enabled, vcpu, rfl, -, tdcs, readable⟩ := runs
  have cls : exitClass s .success = .success := if_pos apic
  have exit := asyncTdExit_from x .success q inRange vcpu tdcs held
  rw [cls] at exit
  rwa [guestExit, serveExit_handled _ enabled readable]

/-- The exit reason that the record leaves in the TD VMCS. -/
theorem recordExit_reason (p : Tdvps) (x : VmExit) : (recordExit p x).vm Vmcs.exitReason = x.reason := by
  show regGet (regSetAll (regSet p.vmcs Vmcs.exitReason x.reason) _) Vmcs.exitReason = _
  rw [regGet_regSetAll_of_notMem, regGet_regSet, if_pos rfl]
  intro e member same
  have key := List.mem_map_of_mem (f := Prod.fst) member
  simp only [List.map_cons, List.map_nil, same] at key
  revert key
  decide

/-! ## External interrupts -/

/-- The record of an external interrupt (R703). -/
def interruptExit (n : Nat) : VmExit := { VmExit.plain 1 with intrInfo := w64 (0x80000000 + n) }

theorem locked_false (x : VmExit) : x.locked false = x := by
  have reason : x.reason ||| bitAt false 26 = x.reason := BitVec.or_zero
  rw [VmExit.locked, reason]

/-- A number of 32 bits is its own low half. -/
theorem w64_and_low {m : Nat} (small : m < 2 ^ 32) : w64 m &&& 0xFFFFFFFF = w64 m := by
  apply BitVec.eq_of_toNat_eq
  have value : (w64 m).toNat = m := Nat.mod_eq_of_lt (by omega)
  rw [BitVec.toNat_and, value]
  show m &&& 2 ^ 32 - 1 = m
  rw [Nat.and_two_pow_sub_one_eq_mod, Nat.mod_eq_of_lt small]

/-- The host's registers after an external interrupt. -/
theorem asyncExitGprs_interrupt (g : Gprs) {n : Nat} (vector : n < 256) :
    asyncExitGprs g .success (interruptExit n) 0 =
      { Gprs.zero with rax := 1, r9 := w64 (0x80000000 + n), rbp := g.rbp } := by
  have basic : (interruptExit n).basic = 1 := by
    show bitsOf 1 15 0 = 1
    decide
  have rax : statusWord ExitClass.success.value (exitReasonOut (interruptExit n)).toNat = 1 := by
    show statusWord Status.success ((1 : Word) &&& 0x0400FFFF).toNat = 1
    decide
  have rcx : exitQualOut (interruptExit n) = 0 := by
    rw [exitQualOut, basic]
    rfl
  have r8 : gpaOut (interruptExit n) = 0 := by
    rw [gpaOut, basic]
    rfl
  have r9 : intrInfoOut (interruptExit n) = w64 (0x80000000 + n) := by
    rw [intrInfoOut, basic]
    exact w64_and_low (by omega)
  simp only [asyncExitGprs, rax, rcx, r8, r9]
  rfl

/-- An external interrupt that nothing comes before is what the event step makes of it. -/
theorem eventStep_interrupt {s : State} {v td : Nat} {t : Tdr} {c : Tdcs} {p : Tdvps} {n : Nat}
    (runs : RunsGuest s v td t c p) (noAccept : p.accept = none) (noTrap : p.mtfPending = false)
    (noWindow : p.intrWindowOpen = false) (vector : n < 256) (other : p.isNotification n = false) :
    eventStep s (.externalInterrupt n) = .next (guestExit s v (interruptExit n) .success 0) := by
  obtain ⟨inRange, running, current, -, vcpu, rfl, tdr, tdcs, -⟩ := runs
  have guest : runningGuest s = some (v, t, c, p) := by simp only [runningGuest, current, vcpu, tdr, tdcs]
  have nothing : p.boundaryExits.find? (BoundaryExit.before (.externalInterrupt n)) = none := by
    cases nmi : p.nmiWindowOpen <;>
      simp [Tdvps.boundaryExits, noTrap, nmi, noWindow, BoundaryExit.before, Event.afterNmi]
  simp only [eventStep, lpStop_none inRange running, guest, noAccept, eventEnabled, vector, nothing, guestEvent,
    physicalInterrupt, other, locked_false, interruptExit]
  rfl

/-- Settles O57: nothing comes before the interrupt (`eventStep_interrupt`), whose TD exit does what every TD exit does
(`guestExit_from`). -/
theorem externalInterruptExits : Obligations.ExternalInterruptExits := by
  intro s v td t c p n runs noAccept noTrap noWindow apic held vector other
  have exit := guestExit_from (interruptExit n) 0 runs apic held
  have step := eventStep_interrupt runs noAccept noTrap noWindow vector other
  obtain ⟨-, -, -, -, -, rfl, -, -, -⟩ := runs
  refine ⟨_, _, step, exit.curVcpu,
    exit.gprs.trans (asyncExitGprs_interrupt _ vector), congrArg Lp.rip exit.lp, congrArg Lp.cr2 exit.lp,
    congrArg Lp.dr7 exit.lp, congrArg Lp.xcr0 exit.lp, congrArg Lp.ext exit.lp, exit.locks, exit.vp, rfl, rfl, rfl, ?_, ?_,
    exit.tdcs, exit.tdrs rfl, exit.mem⟩
  · exact recordExit_vm _ _ _ (by decide)
  · exact recordExit_reason _ _

/-! ## #VE injected by the module -/

/-- InjectVE of a running guest that has read VE_INFO, and whose debugger does not intercept #VE (R710). -/
theorem guestVe_injects {s : State} {v : Nat} {p : Tdvps} (x : VmExit) (enabled : s.seamDisabled = false)
    (vcpu : tblGet s.vps v = some p) (readable : structuresReadable s v = true) (read : p.veInfo.valid = 0)
    (seen : intercepted s v 20 = false) :
    guestVe s v x = s.modVp v fun p => (injectVe (recordExit p x) x).entering := by
  simp only [guestVe, vcpu, read, seen, serveExit_handled _ enabled readable]
  rfl

/-- InjectVE of a guest that has not read VE_INFO is #DF. -/
theorem guestVe_faults {s : State} {v : Nat} {p : Tdvps} (x : VmExit) (enabled : s.seamDisabled = false)
    (vcpu : tblGet s.vps v = some p) (readable : structuresReadable s v = true) (unread : p.veInfo.valid ≠ 0)
    (seen : intercepted s v 8 = false) :
    guestVe s v x = s.modVp v fun p => (injectException (recordExit p x) 8 (some 0)).entering := by
  rw [← guestFault_injects x enabled readable seen]
  simp only [guestVe, vcpu, unread, ne_eq, not_false_eq_true, if_true]

/-- The VCPU that takes #VE. -/
theorem injectVe_takes {p : Tdvps} (x : VmExit) (read : p.veInfo.valid = 0) :
    injectVe (recordExit p x) x = injectException { recordExit p x with veInfo := VeInfo.ofExit x } 20 none :=
  if_neg (not_not_intro read)

/-- The VM-entry fields that an injected exception leaves are those of the VM entry. -/
theorem injected_entry (p : Tdvps) (vector : Nat) (error : Option Word) :
    ((injectException p vector error).entering).vm Vmcs.entryIntrInfo =
        w64 (0x80000300 + vector + if error.isSome then 0x800 else 0) ∧
      ((injectException p vector error).entering).vm Vmcs.entryErrorCode = error.getD 0 := by
  rw [entering_vm _ _ (by decide), entering_vm _ _ (by decide)]
  exact injectException_entry p vector error

/-- The first half of O55: the module's own injection. -/
theorem guestVe_rule {s : State} {v : Nat} {p : Tdvps} (x : VmExit) (enabled : s.seamDisabled = false)
    (vcpu : tblGet s.vps v = some p) (readable : structuresReadable s v = true) (ve : intercepted s v 20 = false)
    (df : intercepted s v 8 = false) :
    ∃ q, tblGet (guestVe s v x).vps v = some q ∧ guestVe s v x = { s with vps := (guestVe s v x).vps } ∧
      (∀ w, w ≠ v → tblGet (guestVe s v x).vps w = tblGet s.vps w) ∧
      q.vm Vmcs.rip = p.vm Vmcs.rip ∧ q.gprs = p.gprs ∧
      (p.veInfo.valid = 0 →
        q.event = some (20, none) ∧ q.vm Vmcs.entryIntrInfo = 0x80000314 ∧ q.veInfo = VeInfo.ofExit x) ∧
      (p.veInfo.valid ≠ 0 →
        q.event = some (8, some 0) ∧ q.vm Vmcs.entryIntrInfo = 0x80000B08 ∧ q.vm Vmcs.entryErrorCode = 0 ∧
        q.veInfo = p.veInfo) := by
  by_cases read : p.veInfo.valid = 0
  · rw [guestVe_injects x enabled vcpu readable read ve]
    refine ⟨_, modVp_get _ vcpu, rfl, fun w other => modVp_get_other s _ other, ?_, ?_, fun _ => ⟨?_, ?_, ?_⟩,
      absurd read⟩ <;> rw [injectVe_takes x read]
    · rw [entering_vm _ _ (by decide), injectException_vm _ _ _ _ (by decide)]
      exact recordExit_vm p x _ (by decide)
    · rfl
    · rfl
    · exact (injected_entry _ _ _).1
    · rfl
  · rw [guestVe_faults x enabled vcpu readable read df]
    exact ⟨_, modVp_get _ vcpu, rfl, fun w other => modVp_get_other s _ other, injected_rip p x 8 (some 0), rfl,
      fun valid => absurd valid read, fun _ => ⟨rfl, (injected_entry _ _ _).1, (injected_entry _ _ _).2, rfl⟩⟩

/-! ## EPT violations of a load -/

section
variable {s : State} {v td : Nat} {t : Tdr} {c : Tdcs} {p : Tdvps} {r : Reg} {gla gpa n length : Nat}
  {suppress priv : Bool} {perms : Word}

/-- The record of the violation of a load that takes no bus lock. -/
def loadViolation (s : State) (perms : Word) (gla gpa : Nat) : VmExit := accessViolation s .read perms gla gpa false

/-- A load whose translation is a violation is answered by R712. -/
theorem guestStep_violation (acts : GuestActs s v td t c p) (legal : c.legalGpa gpa = true)
    (violates : translate s t c p gpa .read false = .violation suppress priv perms) :
    guestStep s (.mem [⟨.read r, [⟨gla, gpa, n⟩]⟩] [] length false false false) =
      .next (eptViolation s v p c (loadViolation s perms gla gpa) suppress priv) := by
  rw [guestStep_acts acts]
  simp only [guestOp, guestAccess, placeAll, placeParts, MemOp.kind, legal, violates, if_true, bind, Except.bind,
    accessFault, busLockSeen, Bool.false_and, loadViolation]

/-- A masked update changes nothing outside the mask. -/
theorem mergeMask_outside (old new mask : Word) : mergeMask old new mask &&& ~~~mask = old &&& ~~~mask := by
  ext i inWord
  simp only [mergeMask, BitVec.getElem_and, BitVec.getElem_or, BitVec.getElem_not]
  cases mask[i] <;> simp

/-- Bits 12:7 of the qualification are the CPU's; the others say what the access was. -/
theorem loadViolation_qualification (s : State) (perms : Word) (gla gpa : Nat) :
    (loadViolation s perms gla gpa).qualification &&& ~~~(0x1F80 : Word) =
      ((1 : Word) ||| (perms <<< 3)) &&& ~~~(0x1F80 : Word) := mergeMask_outside _ _ _

theorem loadViolation_basic (s : State) (perms : Word) (gla gpa : Nat) :
    (loadViolation s perms gla gpa).basic = 48 := by
  show bitsOf (48 ||| bitAt false 26) 15 0 = 48
  decide

/-- The host's registers after the TD exit of the violation. -/
theorem asyncExitGprs_load (g : Gprs) :
    asyncExitGprs g .success (loadViolation s perms gla gpa) 0 =
      { Gprs.zero with
        rax := 48, rcx := (1 ||| (perms <<< 3)) &&& ~~~0x1F80, r8 := w64 gpa &&& ~~~0xFFF, rbp := g.rbp } := by
  have basic := loadViolation_basic s perms gla gpa
  have rax : statusWord ExitClass.success.value (exitReasonOut (loadViolation s perms gla gpa)).toNat = 48 := by
    show statusWord Status.success ((48 ||| bitAt false 26 : Word) &&& 0x0400FFFF).toNat = 48
    decide
  have rcx : exitQualOut (loadViolation s perms gla gpa) = (1 ||| (perms <<< 3)) &&& ~~~0x1F80 :=
    (if_pos basic).trans (loadViolation_qualification s perms gla gpa)
  have r8 : gpaOut (loadViolation s perms gla gpa) = w64 gpa &&& ~~~0xFFF := if_pos (.inl basic)
  have r9 : intrInfoOut (loadViolation s perms gla gpa) = 0 := by simp [intrInfoOut, basic]
  simp only [asyncExitGprs, rax, rcx, r8, r9]
  rfl

/-- A guest still runs when its VCPU changes neither its pages nor what else the TD exit reads. -/
theorem runsGuest_modVp {f : Tdvps → Tdvps} (runs : RunsGuest s v td t c p) (pages : (f p).pagePa = p.pagePa) :
    RunsGuest (s.modVp v f) v td t c (f p) := by
  obtain ⟨inRange, running, current, enabled, vcpu, owner, tdr, tdcs, readable⟩ := runs
  have reads : SameReads s (s.modVp v f) := ⟨rfl, rfl, rfl, rfl, rfl⟩
  exact ⟨inRange, running, current, enabled, modVp_get f vcpu, owner, tdr, tdcs,
    (reads.structuresReadable rfl rfl rfl rfl vcpu (modVp_get f vcpu) pages).trans readable⟩

/-- Where the CPU raises no #VE, the violation is a TD exit; on a private GPA it is counted first (R746). -/
theorem eptViolation_exits (runs : RunsGuest s v td t c p) (noVe : suppress = true ∨ p.veInfo.valid ≠ 0)
    (apic : s.lp.apicModeOk = true) (held : entryLocksHeld s.locks v td = true)
    (below : priv = true → p.possiblyEpfStepping + 1 ≤ s.plat.epfThreshold) (x : VmExit) :
    ∃ s' p', TdExitFrom s' (eptViolation s v p c x suppress priv) v p' c x .success 0 ∧ s'.ownerOf v = td ∧
      s'.lp = s.lp ∧ s'.mem = s.mem ∧ s'.locks = s.locks ∧ p'.gprs = p.gprs ∧ p'.vmcs = p.vmcs := by
  have exits : (!suppress && p.veInfo.valid == 0) = false := by
    rcases noVe with rfl | unread
    · rfl
    · rw [beq_false_of_ne unread, Bool.and_false]
  have ⟨_, _, _, _, _, owner, _⟩ := runs
  cases priv with
  | false =>
    refine ⟨s, p, ?_, owner, rfl, rfl, rfl, rfl, rfl⟩
    rw [eptViolation, exits]
    exact guestExit_from x 0 runs apic held
  | true =>
    refine ⟨s.modVp v Tdvps.countEpf, p.countEpf, ?_, owner, rfl, rfl, rfl, rfl, rfl⟩
    have within : decide (s.plat.epfThreshold < p.possiblyEpfStepping + 1) = false :=
      decide_eq_false (Nat.not_lt.2 (below rfl))
    have counted : eptViolation s v p c x suppress true = guestExit (s.modVp v Tdvps.countEpf) v x .success 0 := by
      simp only [eptViolation, exits, zeroStepExit, within, Bool.false_and, Bool.false_eq_true, if_false, if_true]
    rw [counted]
    exact guestExit_from x 0 (runsGuest_modVp runs rfl) apic held

/-- #VE by the CPU: VE_INFO is filled and the guest's handler runs next (R712). -/
theorem eptViolation_ve (shown : suppress = false) (read : p.veInfo.valid = 0) (seen : p.excExits 20 none = false)
    (x : VmExit) :
    eptViolation s v p c x suppress priv =
      (s.modVp v fun p => { p with veInfo := p.veInfo.byCpu x }).modVp v fun p =>
        (p.loadFault 20 0).deliver 20 none := by
  simp only [eptViolation, shown, read, cpuException, seen, Bool.not_false, beq_self_eq_true, Bool.and_self, if_true,
    Bool.false_eq_true, if_false]

end

/-- Settles O55: the module's injection (`guestVe_rule`), and the two answers to the violation of a load
(`eptViolation_ve`, `eptViolation_exits`). -/
theorem veInjection : Obligations.VeInjection := by
  refine ⟨fun s v p x => guestVe_rule x, fun s v td t c p r gla gpa n length suppress priv perms acts legal violates => ?_⟩
  have step := guestStep_violation (r := r) (gla := gla) (n := n) (length := length) acts legal violates
  obtain ⟨runs, -, -⟩ := acts
  refine ⟨fun shown read seen => ?_, fun noVe apic held below => ?_⟩
  · rw [eptViolation_ve shown read seen] at step
    obtain ⟨-, -, -, -, vcpu, -⟩ := runs
    refine ⟨_, _, step, rfl, modVp_get _ (modVp_get _ vcpu),
      fun w other => (modVp_get_other _ _ other).trans (modVp_get_other s _ other), rfl, rfl, rfl,
      loadViolation_qualification s perms gla gpa, rfl⟩
  · obtain ⟨s', p', exit, owner, lp, mem, locks, gprs, vmcs⟩ :=
      eptViolation_exits runs noVe apic held below (loadViolation s perms gla gpa)
    refine ⟨_, _, step, exit.curVcpu, exit.mem.trans mem, ?_, ?_, exit.vp, rfl, gprs, ?_⟩
    · rw [exit.gprs, lp]
      exact asyncExitGprs_load _
    · rw [exit.locks, locks, owner]
    · exact (recordExit_vm p' _ _ (by decide)).trans (congrArg (regGet · Vmcs.rip) vmcs)

/-! ## SEAMCALL in a guest: a logical processor in the middle of TDH.MEM.WR -/

/-- A guest runs on a logical processor that stands between steps 8 and 9 of a TDH.MEM.WR (R433 (b)). -/
def pausedWriter : State :=
  { State.reset with
    lps := [{ Lp.reset with curVcpu := some 0, memWr := some ⟨0, 0, 0, 0, 0, 0⟩ }]
    vps := [(0, Tdvps.created 0)] }

/-- There the leaf of TDH.MEM.WR goes on with that function, and its write is over. -/
theorem exec_pausedWriter :
    exec .tdhMemWr pausedWriter = .next (memWrResume pausedWriter ⟨0, 0, 0, 0, 0, 0⟩) :=
  exec_memWr_resumes (by decide) rfl rfl

/-- Refutes O56: its second clause does not ask that the logical processor is in no TDH.MEM.WR. In `pausedWriter` SEAMCALL
with that leaf is not the guest's #UD but the rest of the function (`exec_pausedWriter`), which clears `memWr` of the
logical processor, so that more than the VCPU has changed. -/
theorem not_unconditionalUndefinedOpcodes : ¬ Obligations.UnconditionalUndefinedOpcodes := by
  rintro ⟨-, seamcall⟩
  obtain ⟨u, q, step, outside, -⟩ := seamcall .tdhMemWr pausedWriter 0 (Tdvps.created 0) rfl (by decide) rfl rfl rfl rfl
    rfl rfl
  obtain rfl : memWrResume pausedWriter ⟨0, 0, 0, 0, 0, 0⟩ = u :=
    Host.Outcome.next.inj (exec_pausedWriter.symm.trans step)
  have lps := congrArg State.lps outside
  have pending := congrArg (fun l : List Lp => (l.getD 0 Lp.reset).memWr.isSome) lps
  exact absurd pending (by decide)

end Sys2Proof.Machine
end

section
/-! PROOFS. Read after write (20_memory.md rules R247, R270, R272, R275, R279): the memory's own rules, then the
accesses of the host, of a device and of a guest. -/

namespace Sys2Proof.Machine

open Safety

/-! ## The lines of a run of bytes -/

theorem mem_linesOf {a n l : Nat} : l ∈ linesOf a n ↔ a / 64 ≤ l ∧ l < a / 64 + (linesOf a n).length := by
  unfold linesOf
  split
  · simp
  · rw [List.mem_range'_1, List.length_range']

/-- The line of a byte of a run is one of the run's lines. -/
theorem line_mem_linesOf {a n x : Nat} (low : a ≤ x) (high : x < a + n) : x / 64 ∈ linesOf a n := by
  rw [linesOf, if_neg (by omega), List.mem_range'_1]
  omega

/-- A byte of a merged line: the one written, or the old one. -/
theorem mergeLine_getD (old : Nat → Byte) (a x : Nat) (bs : List Byte) :
    (mergeLine old (x / 64) a bs).getD (x % 64) 0 =
      if a ≤ x ∧ x < a + bs.length then bs.getD (x - a) 0 else old x := by
  have inLine : x % 64 < 64 := Nat.mod_lt _ (by decide)
  have address : x / 64 * 64 + x % 64 = x := by omega
  simp only [mergeLine, List.getD_eq_getElem?_getD, List.getElem?_map, List.getElem?_range inLine, Option.map_some,
    Option.getD_some, address]

theorem mergeLine_length (old : Nat → Byte) (l a : Nat) (bs : List Byte) : (mergeLine old l a bs).length = 64 := by
  simp [mergeLine]

/-! ## What memory answers under the HKID that wrote a line (R272) -/

/-- A line that carries the tag of an HKID is answered with its plaintext under that HKID. -/
theorem lineView_of_writeTag {s : State} {hkid l : Nat} (tag : tagAt s.mem l = writeTag s hkid) :
    lineView s hkid l = .data := by
  have key : (keyOf s hkid).key = (writeTag s hkid).key := rfl
  cases isPrivate : isPrivateHkid s.plat hkid <;>
    simp [lineView, tag, key, isPrivate, writeTag, writeTagAt]

theorem memByte_of_data {s : State} {hkid x : Nat} (view : lineView s hkid (x / 64) = .data) :
    memByte s hkid x = cellAt s.mem x := by
  simp only [memByte, view]

theorem readByte_uncached {s : State} {hkid x : Nat}
    (uncached : tblGet s.mem.cache (cacheKey (x / 64) hkid) = none) : readByte s hkid x = memByte s hkid x := by
  simp only [readByte, uncached]

theorem readByte_cached {s : State} {hkid x : Nat} {e : CacheEntry}
    (cached : tblGet s.mem.cache (cacheKey (x / 64) hkid) = some e) : readByte s hkid x = e.data.getD (x % 64) 0 := by
  simp only [readByte, cached]

/-! ## Whole lines to memory -/

section
variable {s : State} {hkid : Nat}

theorem tagAt_writeBack (wf : s.mem.wf = true) (pkg l m : Nat) (d : List Byte) :
    tagAt (writeBack s pkg hkid l d).mem m = if m = l then writeTagAt s pkg hkid else tagAt s.mem m := by
  obtain ⟨-, -, tags, -⟩ := (memory_wf_iff _).1 wf
  have only : (l ≤ m ∧ m < l + 1) ↔ m = l := by omega
  exact (tagFrom_setTags l (l + 1) _ m tags).trans (if_congr only rfl rfl)

theorem cellAt_writeBack (pkg l x : Nat) {d : List Byte} (whole : d.length = 64) :
    cellAt (writeBack s pkg hkid l d).mem x = if x / 64 = l then d.getD (x % 64) 0 else cellAt s.mem x := by
  have written : cellAt (writeBack s pkg hkid l d).mem x = _ :=
    cellAt_writeCells s.mem (setTags s.mem.tags l (l + 1) (writeTagAt s pkg hkid)) s.mem.cache s.mem.stale (l * 64) d x
  have inLine : (l * 64 ≤ x ∧ x < l * 64 + d.length) ↔ x / 64 = l := by omega
  rw [written]
  by_cases own : x / 64 = l
  · have offset : x - l * 64 = x % 64 := by omega
    rw [if_pos (inLine.2 own), if_pos own, offset]
  · rw [if_neg (inLine.not.2 own), if_neg own]

/-- A line written to memory is read back under its HKID; every other line is as it was. -/
theorem memByte_writeBack (wf : s.mem.wf = true) (l x : Nat) {d : List Byte} (whole : d.length = 64) :
    memByte (writeBack s s.pkg hkid l d) hkid x = if x / 64 = l then d.getD (x % 64) 0 else memByte s hkid x := by
  have tag := tagAt_writeBack (hkid := hkid) wf s.pkg l (x / 64) d
  have cell := cellAt_writeBack (s := s) (hkid := hkid) s.pkg l x whole
  by_cases own : x / 64 = l
  · rw [if_pos own] at tag cell ⊢
    rw [memByte_of_data (lineView_of_writeTag tag), cell]
  · rw [if_neg own] at tag cell ⊢
    have view : lineView (writeBack s s.pkg hkid l d) hkid (x / 64) = lineView s hkid (x / 64) := by
      simp only [lineView, tag]
      rfl
    simp only [memByte, view, cell]
    rfl

theorem memByte_storeLines (wf : s.mem.wf = true) (x : Nat) {data : Nat → List Byte}
    (whole : ∀ l, (data l).length = 64) (ls : List Nat) :
    memByte (storeLines s hkid (ls.map fun l => (l, data l))) hkid x =
      if x / 64 ∈ ls then (data (x / 64)).getD (x % 64) 0 else memByte s hkid x := by
  induction ls generalizing s with
  | nil => rfl
  | cons l ls ih =>
    rw [List.map_cons, storeLines, ih (writeBack_wf _ _ _ _ wf), memByte_writeBack wf l x (whole l)]
    by_cases later : x / 64 ∈ ls
    · simp only [later, List.mem_cons_of_mem, if_true]
    · by_cases own : x / 64 = l
      · simp only [own, List.mem_cons_self, if_true, ite_self]
      · simp only [later, own, List.mem_cons, or_self, if_false]

theorem storeLines_cache (s : State) (ls : List (Nat × List Byte)) :
    (storeLines s hkid ls).mem.cache = s.mem.cache := by
  induction ls generalizing s with
  | nil => rfl
  | cons e ls ih => exact ih _

/-- Merged lines stored to memory are read back from it: the bytes written, and the old ones around them. -/
theorem memByte_storeMerged (wf : s.mem.wf = true) (old : Nat → Byte) (a x : Nat) (bs : List Byte) :
    memByte (storeLines s hkid ((linesOf a bs.length).map fun l => (l, mergeLine old l a bs))) hkid x =
      if x / 64 ∈ linesOf a bs.length then
        if a ≤ x ∧ x < a + bs.length then bs.getD (x - a) 0 else old x
      else memByte s hkid x := by
  rw [memByte_storeLines wf x (fun l => mergeLine_length old l a bs), mergeLine_getD]

/-! ## The four kinds of write -/

theorem tblGet_cacheWrites (a h l : Nat) (bs : List Byte) (ls : List Nat) (c : Table CacheEntry) (hkidOk : hkid < 65536)
    (hOk : h < 65536) :
    tblGet (cacheWrites s hkid a bs ls c) (cacheKey l h) =
      if h = hkid ∧ l ∈ ls then some ⟨mergedLine s hkid l a bs, true, false, s.plat.scopeOf s.curLp⟩
      else tblGet c (cacheKey l h) := by
  induction ls generalizing c with
  | nil => simp [cacheWrites]
  | cons m ls ih =>
    rw [cacheWrites, ih, tblGet_tblSet]
    by_cases same : cacheKey m hkid = cacheKey l h
    · obtain ⟨rfl, rfl⟩ := cacheKey_inj hkidOk hOk same
      simp
    · have other : ¬ (h = hkid ∧ l = m) := by
        rintro ⟨rfl, rfl⟩
        exact same rfl
      have members : (h = hkid ∧ l ∈ m :: ls) ↔ (h = hkid ∧ l ∈ ls) := by
        rw [List.mem_cons, and_or_left]
        exact or_iff_right other
      rw [if_neg same, if_congr members rfl rfl]

theorem readByte_writeCached (a x h : Nat) (bs : List Byte) (hkidOk : hkid < 65536) (hOk : h < 65536) :
    readByte (writeCached s hkid a bs) h x =
      if h = hkid ∧ a ≤ x ∧ x < a + bs.length then bs.getD (x - a) 0 else readByte s h x := by
  have entry : tblGet (writeCached s hkid a bs).mem.cache (cacheKey (x / 64) h) = _ :=
    tblGet_cacheWrites a h (x / 64) bs (linesOf a bs.length) s.mem.cache hkidOk hOk
  by_cases touched : h = hkid ∧ x / 64 ∈ linesOf a bs.length
  · rw [if_pos touched] at entry
    obtain ⟨rfl, -⟩ := touched
    rw [readByte_cached entry]
    simp only [mergedLine, mergeLine_getD, true_and]
  · have outside : ¬ (h = hkid ∧ a ≤ x ∧ x < a + bs.length) := fun ⟨same, low, high⟩ =>
      touched ⟨same, line_mem_linesOf low high⟩
    rw [if_neg touched] at entry
    rw [if_neg outside]
    simp only [readByte, entry]
    rfl

theorem readByte_writeDirect_own {a x : Nat} {bs : List Byte} (wf : s.mem.wf = true) (hkidOk : hkid < 65536)
    (aligned : a % 64 = 0) (whole : bs.length % 64 = 0) (low : a ≤ x) (high : x < a + bs.length) :
    readByte (writeDirect s hkid a bs) hkid x = bs.getD (x - a) 0 := by
  obtain ⟨-, -, tags, -⟩ := (memory_wf_iff _).1 wf
  have first : a / 64 ≤ x / 64 := by omega
  have last : x / 64 < (a + bs.length) / 64 := by omega
  have uncached : tblGet (writeDirect s hkid a bs).mem.cache (cacheKey (x / 64) hkid) = none :=
    (tblGet_dropCache _ _ _ _ _ _ hkidOk).trans (if_pos ⟨first, last, rfl⟩)
  have tag : tagAt (writeDirect s hkid a bs).mem (x / 64) = writeTag (writeDirect s hkid a bs) hkid :=
    (tagFrom_setTags _ _ _ _ tags).trans (if_pos ⟨first, last⟩)
  have cell : cellAt (writeDirect s hkid a bs).mem x = bs.getD (x - a) 0 :=
    (cellAt_writeCells s.mem _ _ _ a bs x).trans (if_pos ⟨low, high⟩)
  rw [readByte_uncached uncached, memByte_of_data (lineView_of_writeTag tag), cell]

theorem readByte_writeUncached {a x : Nat} {bs : List Byte} (wf : s.mem.wf = true)
    (uncached : tblGet s.mem.cache (cacheKey (x / 64) hkid) = none) :
    readByte (writeUncached s hkid a bs) hkid x =
      if a ≤ x ∧ x < a + bs.length then bs.getD (x - a) 0 else readByte s hkid x := by
  have still : tblGet (writeUncached s hkid a bs).mem.cache (cacheKey (x / 64) hkid) = none := by
    rw [writeUncached, storeLines_cache, uncached]
  rw [readByte_uncached still, readByte_uncached uncached, writeUncached, memByte_storeMerged wf]
  by_cases touched : x / 64 ∈ linesOf a bs.length
  · rw [if_pos touched]
  · rw [if_neg touched, if_neg fun ⟨low, high⟩ => touched (line_mem_linesOf low high)]

theorem readByte_writeDma (a x : Nat) (bs : List Byte) (wf : s.mem.wf = true) (hkidOk : hkid < 65536) :
    readByte (writeDma s hkid a bs) hkid x =
      if a ≤ x ∧ x < a + bs.length then bs.getD (x - a) 0 else readByte s hkid x := by
  have stored : memByte (writeDma s hkid a bs) hkid x = _ := memByte_storeMerged wf (readByte s hkid) a x bs
  have entry : tblGet (writeDma s hkid a bs).mem.cache (cacheKey (x / 64) hkid) = _ :=
    tblGet_dropCache _ _ _ hkid (x / 64) hkid hkidOk
  rw [storeLines_cache] at entry
  by_cases touched : x / 64 ∈ linesOf a bs.length
  · obtain ⟨first, last⟩ := mem_linesOf.1 touched
    rw [if_pos ⟨first, last, rfl⟩] at entry
    rw [readByte_uncached entry, stored, if_pos touched]
  · rw [if_neg fun ⟨first, last, _⟩ => touched (mem_linesOf.2 ⟨first, last⟩)] at entry
    rw [if_neg touched] at stored
    rw [if_neg fun ⟨low, high⟩ => touched (line_mem_linesOf low high)]
    simp only [readByte, entry, stored]

/-- What a private HKID wrote last reads as zeros under a shared one. -/
theorem readByte_shared_of_private {x : Nat} (shared : isPrivateHkid s.plat hkid = false)
    (owned : (tagAt s.mem (x / 64)).td = true) (uncached : tblGet s.mem.cache (cacheKey (x / 64) hkid) = none) :
    readByte s hkid x = 0 := by
  rw [readByte_uncached uncached]
  simp only [memByte, lineView, shared, owned, if_true, Bool.false_eq_true, if_false]

end

/-! ## The host and a device -/

section
variable {s : State} {pa : Nat} {bytes : List Byte}

/-- On a logical processor that is idle in VMX root operation the host's own rules answer a host operation. -/
theorem hostStep_idle (inRange : s.curLp < s.lps.length) (running : s.lp.shutdown = false)
    (inRoot : s.lp.curVcpu = none) (idle : s.lp.memWr = none) (op : HostOp) :
    (∀ u, hostOp s op = some u → hostStep s op = .next u) ∧
      (hostOp s op = none → hostStep s op = .refused .notTheHosts) := by
  have runs := lpStop_none inRange running
  constructor
  · intro u done
    simp only [hostStep, runs, inRoot, idle, done, Option.isSome_none, Bool.false_eq_true, if_false]
  · intro denied
    simp only [hostStep, runs, inRoot, idle, denied, Option.isSome_none, Bool.false_eq_true, if_false]

theorem hostOp_memWrite (allowed : hostAddressOk s.plat pa bytes.length = true) :
    hostOp s (.memWrite pa bytes) = some (writeShared s pa bytes) := if_pos allowed

theorem hostOp_memWrite_refused (denied : hostAddressOk s.plat pa bytes.length = false) :
    hostOp s (.memWrite pa bytes) = none := if_neg (Bool.not_eq_true _ ▸ denied)

theorem envStep_dmaWrite (allowed : hostAddressOk s.plat pa bytes.length = true) :
    envStep s (.dmaWrite pa bytes) = .next (writeDma s (hkidOf s.plat pa) (addrOf s.plat pa) bytes) := by
  simp only [envStep, envOp, allowed, if_true]

theorem envStep_dmaWrite_refused (denied : hostAddressOk s.plat pa bytes.length = false) :
    envStep s (.dmaWrite pa bytes) = .refused .notEnabled := by
  simp only [envStep, envOp, denied, Bool.false_eq_true, if_false]

theorem writeShared_cacheable (cacheable : sharedUc s pa bytes.length = false) :
    writeShared s pa bytes = writeCached s (hkidOf s.plat pa) (addrOf s.plat pa) bytes := by
  simp only [writeShared, writeTyped, cacheable, Bool.false_eq_true, if_false]

theorem hostOp_memRead (r : Reg) (allowed : hostAddressOk s.plat pa 8 = true) (cacheable : sharedUc s pa 8 = false) :
    hostOp s (.memRead r pa) = some (s.modLp fun l =>
      { l with gprs := l.gprs.set r (read64 s (hkidOf s.plat pa) (addrOf s.plat pa)) }) := by
  simp only [hostOp, allowed, sharedBytes, readTyped, cacheable, read64, Bool.false_eq_true, if_true, if_false]

end

/-! ## A guest -/

section
variable {s : State} {v td : Nat} {t : Tdr} {c : Tdcs} {p : Tdvps} {r : Reg} {gla gpa n length hpa hkid : Nat}
  {uc : Bool} {fill : Option (Nat × Bool × Word)}

/-- An access of one part, cached and filling no translation, completes with its bytes in write-back memory. -/
theorem guestStep_oneAccess (acts : GuestActs s v td t c p) (op : MemOp) (legal : c.legalGpa gpa = true)
    (placed : translate s t c p gpa op.kind false = .ok hpa hkid uc fill)
    (cacheable : effectiveUc s.plat uc hkid hpa n = false) :
    guestStep s (.mem [⟨op, [⟨gla, gpa, n⟩]⟩] [] length false false false) =
      .next (completeAccess s v c p [⟨op, [⟨gpa, hpa, hkid, uc, false, n, fill⟩]⟩] [] length false) := by
  rw [guestStep_acts acts]
  simp only [guestOp, guestAccess, placeAll, placeParts, legal, placed, cacheable, bind, Except.bind, pure, Except.pure,
    if_true, Bool.false_eq_true, if_false]

theorem leBytes_length (n x : Nat) : (leBytes n x).length = n := by
  induction n generalizing x with
  | zero => rfl
  | succ n ih => rw [leBytes, List.length_cons, ih]

theorem completeAccess_store (s : State) (v : Nat) (c : Tdcs) (p : Tdvps) (r : Reg) (gpa hpa hkid n length : Nat) (uc : Bool)
    (fill : Option (Nat × Bool × Word)) :
    completeAccess s v c p [⟨.write r, [⟨gpa, hpa, hkid, uc, false, n, fill⟩]⟩] [] length false =
      (writeCached s hkid hpa (leBytes n (p.gprs.get r).toNat)).modVp v fun _ => p.next length := by
  have whole : (leBytes n (p.gprs.get r).toNat).take n = leBytes n (p.gprs.get r).toNat :=
    List.take_of_length_le (leBytes_length n _).le
  simp only [completeAccess, PlacedAccess.poisoned, MemOp.reads, List.any_cons, List.any_nil, Bool.false_and, Bool.or_self,
    performAll, performAccess, partsSize, writeParts, writeTyped, applyNatives, List.map_cons, List.map_nil,
    List.sum_cons, List.sum_nil, Nat.add_zero, whole, Bool.false_eq_true, if_false]

theorem completeAccess_load (v : Nat) (c : Tdcs) (p : Tdvps) (r : Reg) (gpa length : Nat) (uc : Bool)
    (fill : Option (Nat × Bool × Word)) (clean : poisoned s hkid hpa n = false) :
    completeAccess s v c p [⟨.read r, [⟨gpa, hpa, hkid, uc, false, n, fill⟩]⟩] [] length false =
      s.modVp v fun _ =>
        ({ p with gprs := p.gprs.set r (w64 (leValue (readBytes s hkid hpa n))) } : Tdvps).next length := by
  simp only [completeAccess, PlacedAccess.poisoned, MemOp.reads, List.any_cons, List.any_nil, Bool.true_and, Bool.or_false,
    poisonedTyped, clean, performAll, performAccess, readParts, readTyped, applyNatives, List.flatMap_cons,
    List.flatMap_nil, List.append_nil, Bool.false_eq_true, if_false]

end

/-- Settles O58: the memory's own rules, then the accesses that are such reads and writes. -/
theorem memoryReadAfterWrite : Obligations.MemoryReadAfterWrite := by
  refine ⟨fun s hkid a bytes hkidOk wf => ⟨?_, ?_, ?_, ?_, ?_⟩, ?_, ?_⟩
  · exact fun x h hOk => readByte_writeCached a x h bytes hkidOk hOk
  · exact fun aligned whole x => readByte_writeDirect_own wf hkidOk aligned whole
  · exact fun x => readByte_writeUncached wf
  · exact fun x => readByte_writeDma a x bytes wf hkidOk
  · exact fun x => readByte_shared_of_private
  · intro s pa bytes inRange running inRoot idle
    have step (op : HostOp) := hostStep_idle inRange running inRoot idle op
    refine ⟨fun allowed => (step _).1 _ (hostOp_memWrite allowed), envStep_dmaWrite, writeShared_cacheable,
      fun denied => ⟨(step _).2 (hostOp_memWrite_refused denied), envStep_dmaWrite_refused denied⟩,
      fun r allowed cacheable => ⟨_, (step _).1 _ (hostOp_memRead r allowed cacheable), rfl, ?_⟩⟩
    rw [modLp_lp _ inRange]
  · intro s v td t c p r gla gpa n length hpa hkid uc fill acts legal cacheable
    have ⟨⟨_, _, _, _, vcpu, _⟩, _⟩ := acts
    refine ⟨fun placed => ?_, fun placed clean => ?_⟩
    · have stores := guestStep_oneAccess (gla := gla) (length := length) acts (.write r) legal placed cacheable
      rw [completeAccess_store] at stores
      exact ⟨_, _, stores, rfl, modVp_get _ vcpu, rfl, next_rip _ _⟩
    · have loads := guestStep_oneAccess (gla := gla) (length := length) acts (.read r) legal placed cacheable
      rw [completeAccess_load _ _ _ _ _ _ _ _ clean] at loads
      exact ⟨_, _, loads, rfl, modVp_get _ vcpu, rfl, next_rip _ _⟩

end Sys2Proof.Machine
end
